-- ==== Sys2Proof/Word.lean ====
section
/-! DEFINITION. The word types of the DZ-4832 model: bytes, 32-bit and 64-bit words (R4, R5). -/

namespace Sys2Proof

/-- One byte. -/
abbrev Byte := BitVec 8

/-- A string of bytes, lowest address (or first on the wire) first. -/
abbrev Bytes := List Byte

/-- A 32-bit word, such as a Gullot instruction word. -/
abbrev Word32 := BitVec 32

/-- A 64-bit word, such as a register or a general register of a chanter thread. -/
abbrev Word := BitVec 64

/-- A sparse table: pairs of a key and what stands under it, keys strictly rising. -/
abbrev Table (α : Type) := List (Nat × α)

end Sys2Proof
end

