-- ==== Sys2Proof/Machine/Data.lean ====
section
/-! DEFINITION. Plain-data helpers that every other file uses: sparse tables, byte strings in both byte
orders (R5), bit fields of numbers (R4) and saturating counts. -/

namespace Sys2Proof.Machine

/-! ## Sparse tables -/

/-- The value a table holds under a key. -/
def find {α : Type} : Table α → Nat → Option α
  | [], _ => none
  | (k, v) :: t, n => if k = n then some v else find t n

/-- A table with one key's value replaced or inserted; keys stay in rising order. -/
def put {α : Type} : Table α → Nat → α → Table α
  | [], n, v => [(n, v)]
  | (k, w) :: t, n, v =>
    if n < k then (n, v) :: (k, w) :: t else if k = n then (n, v) :: t else (k, w) :: put t n v

/-- A table without one key. -/
def drop {α : Type} (t : Table α) (n : Nat) : Table α := t.filter fun p => p.1 != n

/-- A table with the value under one key, where there is one, changed by a function. -/
def alter {α : Type} (t : Table α) (n : Nat) (f : α → α) : Table α :=
  match find t n with
  | some v => put t n (f v)
  | none => t

/-- Every value of a table changed by a function of its key and value. -/
def mapValues {α : Type} (t : Table α) (f : Nat → α → α) : Table α := t.map fun p => (p.1, f p.1 p.2)

/-- The entries of a table that a test accepts. -/
def keepIf {α : Type} (t : Table α) (p : Nat → α → Bool) : Table α := t.filter fun q => p q.1 q.2

/-- A key a table holds nothing under: the lowest one in `lo … lo + fuel`. -/
def freeKey {α : Type} (t : Table α) (lo : Nat) : Nat → Option Nat
  | 0 => none
  | fuel + 1 => if (find t lo).isNone then some lo else freeKey t (lo + 1) fuel

/-- Keys strictly rising. -/
def rising {α : Type} : Table α → Bool
  | [] => true
  | [_] => true
  | a :: b :: t => decide (a.1 < b.1) && rising (b :: t)

/-! ## Bit fields of numbers (R4) -/

/-- Field `[lo + w - 1 : lo]` of a number. -/
def bitsOf (v lo w : Nat) : Nat := v / 2 ^ lo % 2 ^ w

/-- Bit `n` of a number. -/
def bitOf (v n : Nat) : Bool := v / 2 ^ n % 2 == 1

/-- A number with the field `[lo + w - 1 : lo]` replaced by the low `w` bits of `x`. -/
def withBits (v lo w x : Nat) : Nat :=
  v / 2 ^ (lo + w) * 2 ^ (lo + w) + x % 2 ^ w * 2 ^ lo + v % 2 ^ lo

/-- The two's complement value of the low `w` bits of a number. -/
def signedOf (v w : Nat) : Int :=
  if v % 2 ^ w < 2 ^ (w - 1) then (v % 2 ^ w : Nat) else ((v % 2 ^ w : Nat) : Int) - 2 ^ w

/-- The low `w` bits of a number in two's complement. -/
def unsignedOf (v : Int) (w : Nat) : Nat := (v % (2 ^ w : Nat)).toNat

/-- 1 for true and 0 for false. -/
def flag (b : Bool) : Nat := if b then 1 else 0

/-- A bitmap of the units `lo … lo + n - 1` that a test accepts, unit `lo` at bit 0. -/
def bitmap (n : Nat) (p : Nat → Bool) : Nat :=
  (List.range n).foldl (fun acc i => acc + flag (p i) * 2 ^ i) 0

/-- Addition that stops at a ceiling: the saturating counts of the register tables. -/
def satAdd (ceiling a b : Nat) : Nat := min ceiling (a + b)

/-- Ceiling of a 32-bit saturating count. -/
def max32 : Nat := 2 ^ 32 - 1

/-! ## Byte strings (R5) -/

/-- The `n` low bytes of a number, least significant first: the byte order of module and host memory. -/
def leBytes : Nat → Nat → Bytes
  | 0, _ => []
  | n + 1, v => BitVec.ofNat 8 v :: leBytes n (v / 256)

/-- The number a little-endian byte string spells. -/
def leNat : Bytes → Nat
  | [] => 0
  | b :: t => b.toNat + 256 * leNat t

/-- The `n` low bytes of a number, most significant first: the byte order of Cuchail headers. -/
def beBytes (n v : Nat) : Bytes := (leBytes n v).reverse

/-- The number a big-endian byte string spells. -/
def beNat (b : Bytes) : Nat := leNat b.reverse

/-- `n` zero bytes. -/
def zeros (n : Nat) : Bytes := List.replicate n 0

/-- Bytes `at … at + n - 1` of a string, zero past its end. -/
def slice (b : Bytes) (start n : Nat) : Bytes :=
  let got := (b.drop start).take n
  got ++ zeros (n - got.length)

/-- The little-endian number in bytes `at … at + n - 1`. -/
def leAt (b : Bytes) (start n : Nat) : Nat := leNat (slice b start n)

/-- Byte `i` of a string as a number, zero past its end. -/
def byteAt (b : Bytes) (i : Nat) : Nat := (b.getD i 0).toNat

/-- Whether bytes `lo … hi` of a string are all zero. -/
def zeroRange (b : Bytes) (lo hi : Nat) : Bool := (slice b lo (hi + 1 - lo)).all (· == 0)

/-- A string with its bytes from `at` on replaced by `d`, lengthened with zeros where it is short. -/
def patch (b : Bytes) (start : Nat) (d : Bytes) : Bytes :=
  slice b 0 start ++ d ++ b.drop (start + d.length)

/-- `n` bytes of a string as a padded record: cut or filled with zeros. -/
def padTo (n : Nat) (b : Bytes) : Bytes := slice b 0 n

/-! ## Sparse byte memory -/

/-- What an unlisted address of a zero-initialised memory reads as (R89). [log 16: DEDUCED] -/
def emptyByte : Byte := 0

/-- One byte of a sparse memory. [log 16: DEDUCED] -/
def readByte (m : List Host.Cell) (a : Nat) : Byte := (find m a).getD emptyByte

/-- A sparse memory with one byte written; writing the empty byte removes the entry. -/
def writeByte (m : List Host.Cell) (a : Nat) (b : Byte) : List Host.Cell :=
  if b = emptyByte then drop m a else put m a b

/-- `n` bytes of a sparse memory from an address on. -/
def readBytes (m : List Host.Cell) (a : Nat) : Nat → Bytes
  | 0 => []
  | n + 1 => readByte m a :: readBytes m (a + 1) n

/-- A sparse memory with a byte string written from an address on. -/
def writeBytes (m : List Host.Cell) (a : Nat) : Bytes → List Host.Cell
  | [] => m
  | b :: t => writeBytes (writeByte m a b) (a + 1) t

/-- The canonical form of a sparse memory: addresses strictly rising, no entry equal to the empty byte. -/
def memoryWf (m : List Host.Cell) : Bool := rising m && m.all fun c => c.2 != emptyByte

/-! ## Small list helpers -/

/-- A number put in its place in a rising list. -/
def insertSorted (x : Int) : List Int → List Int
  | [] => [x]
  | y :: t => if x ≤ y then x :: y :: t else y :: insertSorted x t

/-- The lower median of a list of integers, 0 for an empty list (R35, R83, R432). -/
def median (l : List Int) : Int :=
  (l.foldr insertSorted []).getD ((l.length - 1) / 2) 0

/-- Apply a change once for every element of a list, first element first. -/
def each {α σ : Type} (l : List α) (f : α → σ → σ) (s : σ) : σ := l.foldl (fun s a => f a s) s

end Sys2Proof.Machine
end

