-- ==== Sys2Proof/Machine/StripeState.lean ====
section
/-! DEFINITION. The stripe engine's state: sets, layouts, members, zones, stripes, records, the extent map, seals, the
journal, ledgers, spares, losses and namespaces (R255 to R324). -/

namespace Sys2Proof.Machine

/-- Set types (R255). -/
inductive SetType where
  | mirror2 | mirror3 | stripe2p
  deriving DecidableEq, Repr

/-- Member states (R300). -/
inductive MemberState where
  | active | missing | rebuilding | retiring | failed
  deriving DecidableEq, Repr

/-- One member of a set (R255, R300, R308). -/
structure Member where
  bay : Nat
  state : MemberState := .active
  /-- STRIPE_SEQ from which every stripe includes the member, and the instant it joined -/
  joinSeq : Nat := 0
  joinedAt : Nat := 0
  /-- STRIPE_SEQs below that of stripes that had not been written when it joined: they include it too (R308) -/
  tail : List Nat := []
  /-- bay of the RETIRING drive whose index a REBUILDING member took (R306) -/
  retiringBay : Option Nat := none
  /-- STRIPE_SEQ ranges written while a lost spare held the index: the RETIRING drive holds no unit of them (R508) -/
  skipped : List (Nat × Nat) := []
  /-- REBUILDING: stripes lost that the rebuild meets (R308, R310) -/
  stripesLost : Nat := 0
  /-- repairs of the current hour, and when that hour began (R300) -/
  repairs : Nat := 0
  hourFrom : Nat := 0
  /-- breath in which it became lost or RETIRING (R306) -/
  sinceBreath : Nat := 0
  /-- SPARE_NONE has been posted for this wait (R306) -/
  noneposted : Bool := false
  deriving DecidableEq, Repr

/-- A layout of a set: its type, its redundancy floor and its members by index (R255, R316). -/
structure Layout where
  type : SetType
  width : Nat
  minRedundancy : Nat
  generation : Nat
  members : Table Member
  /-- usable stripes S, and whole zones of them (R258) -/
  stripes : Nat
  zones : Nat
  deriving DecidableEq, Repr

/-- Zone states (R265). A zone that is not listed is FREE. -/
inductive ZoneState where
  | filling | full | cleaning | pendingFree
  deriving DecidableEq, Repr

/-- A zone that is not FREE. -/
structure Zone where
  state : ZoneState
  /-- layout generation it belongs to -/
  generation : Nat
  /-- lowest STRIPE_SEQ in it (R293) -/
  firstSeq : Nat
  /-- map pages changed by relocations out of it that have no PAGE_CKPT yet: NSID and page (R295) -/
  pages : List (Nat × Nat) := []
  deriving DecidableEq, Repr

/-- The life of a stripe (R267, R268, R277). -/
inductive StripeLife where
  | opened | closed | written | committed
  deriving DecidableEq, Repr

/-- A stripe that has been opened in a zone that is not FREE. -/
structure Stripe where
  seq : Nat
  generation : Nat
  /-- `true` = HOST stream -/
  host : Bool
  life : StripeLife
  /-- fill position in the data space; DATA_USED once closed (R266) -/
  used : Nat
  /-- instant of its first record -/
  firstAt : Option Nat := none
  closedBreath : Nat := 0
  /-- members whose unit write is not yet durable -/
  unwritten : List Nat := []
  /-- member writes that met one Media and Data Integrity error, 64 + i for one of a rebuild (R410) -/
  retried : List Nat := []
  deriving DecidableEq, Repr

/-- Record kinds (R266). PAD records are implied by DATA_USED. -/
inductive RecordKind where
  | stream | directory | mapPage | rootPage
  deriving DecidableEq, Repr

/-- A record of the log (R266). -/
structure Record where
  set : Nat
  kind : RecordKind
  nsid : Nat
  /-- first LBA, granule number or page number -/
  first : Nat
  blocks : Nat
  /-- body bytes: the encrypted cunit stream, or the body in the clear -/
  body : Bytes
  stripe : Nat
  offset : Nat
  generation : Nat
  /-- MAP_PAGE: JSEQ up to which the page's changes are in the record -/
  jseq : Nat := 0
  /-- a collection or rebuild copy of this record waits for its stripe to be written (R278) -/
  movingTo : Option Nat := none
  deriving DecidableEq, Repr

/-- An extent of a directory (R274). -/
structure Extent where
  first : Nat
  count : Nat
  skip : Nat
  streamBlocks : Nat
  record : Nat
  deriving DecidableEq, Repr

/-- A mapped granule: its directory record, the JSEQ that wrote it, and the directory (R273, R274). -/
structure Granule where
  directory : Nat
  jseq : Nat
  extents : List Extent
  deriving DecidableEq, Repr

/-- Why a namespace is fenced (R473). -/
inductive NsFence where
  | program | keyDestroyed | setFailed
  deriving DecidableEq, Repr

/-- A namespace (R263). -/
structure Namespace where
  set : Nat
  size : Nat
  keyId : Nat
  coder : Nat
  fences : List NsFence := []
  granules : Table Granule := []
  /-- changed pages and the instant of the first change not checkpointed (R284) -/
  dirty : Table Nat := []
  /-- root entries: MAP_PAGE record of each checkpointed page -/
  roots : Table Nat := []
  deriving DecidableEq, Repr

/-- One change of a seal: an append's record with its LBAs, or an unmapped range (R276). -/
inductive Change where
  | append (record lba blocks : Nat)
  | unmap (lba blocks : Nat)
  deriving DecidableEq, Repr

/-- A seal that no map commit has applied yet: it stands in the tail index (R276, R277). -/
structure Seal where
  seq : Nat
  set : Nat
  nsid : Nat
  /-- commit stripe and its STRIPE_SEQ -/
  stripe : Nat
  stripeSeq : Nat
  changes : List Change
  deriving DecidableEq, Repr

/-- Contents of a journal record (R282). -/
inductive JournalKind where
  | append (nsid lba blocks stripe offset length seq : Nat)
  | unmap (nsid lba blocks seq : Nat)
  | seal (seq stripe count : Nat)
  | stripeWritten (stripe stripeSeq : Nat) (host : Bool)
  | mapCommit (nsid granule : Nat)
  | stripeCommitted (stripe stripeSeq : Nat)
  | pageCkpt (nsid page : Nat)
  | zoneFree (zone : Nat)
  deriving DecidableEq, Repr

/-- A journal record that has not retired (R282, R283). -/
structure JournalRecord where
  jseq : Nat
  set : Nat
  kind : JournalKind
  deriving DecidableEq, Repr

/-- A loss log entry (R311, R313). -/
structure Loss where
  logical : Bool
  cause : Nat
  nsid : Nat
  /-- first LBA, or stripe -/
  first : Nat
  /-- PHYSICAL: layout generation -/
  generation : Nat
  count : Nat
  units : Nat
  breath : Nat
  deriving DecidableEq, Repr

/-- Where a set's ledger copies lie: host set and the two bays, or save-flash (R285). -/
inductive LedgerHost where
  | flash
  | members (set bayA bayB : Nat)
  deriving DecidableEq, Repr

/-- Set states (R302). -/
inductive SetState where
  | formatting | ready | degraded | exposed | failed
  deriving DecidableEq, Repr

/-- A stripe set (R255 to R324). -/
structure StripeSet where
  /-- 64-bit set identity drawn at SET_CREATE (R259) -/
  identity : Nat
  /-- owner and HOME slot: 0 = A, 1 = B (R392) -/
  owner : Nat
  home : Nat
  state : SetState := .formatting
  /-- READY has been entered once -/
  wasReady : Bool := false
  layout : Layout
  /-- the layout a reshape empties -/
  old : Option Layout := none
  zones : Table Zone := []
  stripes : Table Stripe := []
  /-- stripe number of each stream's open stripe, and the zone each fills -/
  hostOpen : Option Nat := none
  hostZone : Option Nat := none
  backOpen : Option Nat := none
  backZone : Option Nat := none
  nextSeq : Nat := 0
  gcBytes : Nat := 0
  padBytes : Nat := 0
  collecting : Bool := false
  /-- the remedies of a RETIRING member are tested again at the next edge (R314) -/
  retest : Bool := false
  lowPosted : Bool := false
  exhaustedPosted : Bool := false
  losses : List Loss := []
  overstated : Bool := false
  lostThisSecond : Nat := 0
  /-- repairs since the last STRIPE_REPAIRED, and the second in which that was posted -/
  repairsUnposted : Nat := 0
  repairSecond : Option Nat := none
  scrubRead : Nat := 0
  scrubRepaired : Nat := 0
  scrubLost : Nat := 0
  /-- stripes queued for the scrub by R291 -/
  scrubQueue : List Nat := []
  ledger : LedgerHost := .flash
  /-- JSEQ up to which both ledger copies hold the set's records (R286) -/
  ledgerJseq : Nat := 0
  /-- recovery under R288 is under way; appends wait -/
  recovering : Bool := false
  /-- source, seals applied, appends discarded and blocks lost of the recovery (R289) -/
  recSource : Nat := 0
  recSeals : Nat := 0
  recDiscarded : Nat := 0
  recLost : Nat := 0
  deriving DecidableEq, Repr

/-- The stripe engine. -/
structure Stripes where
  sets : Table StripeSet := []
  namespaces : Table Namespace := []
  /-- deleted namespaces whose map is being released: blocks still mapped (R264) -/
  releasing : Table Namespace := []
  records : Table Record := []
  seals : List Seal := []
  journal : List JournalRecord := []
  nextJseq : Nat := 0
  /-- spares: bay to SCOPE (R305) -/
  spares : Table Nat := []
  /-- spares whose inserted drive carries a Darua label (R506) -/
  labelledSpares : List Nat := []
  /-- spares assigned at the edge in hand: they take an index at the next one at the earliest (R306) -/
  freshSpares : List Nat := []
  mapFull : Bool := false
  pressurePosted : Bool := false
  /-- JSEQ at the end of the previous breath (step 5 of R43) -/
  checkpointJseq : Nat := 0
  deriving DecidableEq, Repr

end Sys2Proof.Machine
end

