-- ==== Sys2Proof/Machine/ChanterState.lean ====
section
/-! DEFINITION. The state of the chanters, their programs and activations (R160 to R214), of the compression
lanes (R229 to R234) and of the cipher engine (R235 to R254). -/

namespace Sys2Proof.Machine

/-- The memory a capability window may lie in. -/
inductive Area where
  | frame | scratch | data | checks | staging | coverage
  deriving DecidableEq, Repr

/-- A capability window (R168). -/
structure Cap where
  area : Area
  base : Nat
  length : Nat
  mayRead : Bool
  mayWrite : Bool
  engSrc : Bool
  engDst : Bool
  deriving DecidableEq, Repr

/-- The engine instructions (R172, R202 to R211). -/
inductive EngineOp where
  | zc | zd | xtsEncrypt | xtsDecrypt | app | rdl | xout | unmap | mapq | rdc
  deriving DecidableEq, Repr

/-- A byte range an engine operand covers. -/
structure Span where
  area : Area
  start : Nat
  length : Nat
  deriving DecidableEq, Repr

/-- An outstanding or completed ticket (R172, R173). -/
structure Ticket where
  op : EngineOp
  a : Nat
  b : Nat
  c : Nat
  d : Nat
  sources : List Span
  dests : List Span
  /-- status and index of an operand outside its range (R194), where there is one -/
  refused : Option (Nat × Nat) := none
  /-- 64-bit result, once complete -/
  result : Option Nat := none
  /-- lane the operation is in service on, and its progress (R231, R247) -/
  lane : Option Nat := none
  consumed : Nat := 0
  produced : Nat := 0
  /-- a resume or context record holds the stopped operation -/
  stopped : Bool := false
  /-- app: the cunit's bytes as they were at issue -/
  body : Bytes := []
  /-- app: key of the tail record it wrote, once the append has been made -/
  record : Option Nat := none
  deriving DecidableEq, Repr

/-- A marked engine output (R205). -/
structure Mark where
  span : Span
  lba : Nat
  blocks : Nat
  /-- set by `xts` on an exact `zc` output -/
  sealedReady : Bool
  deriving DecidableEq, Repr

/-- What an activation runs for (R161). -/
inductive Work where
  /-- kind 0: admission count of the command -/
  | command (seq : Nat)
  /-- kind 1 -/
  | commit (window breath : Nat)
  /-- kind 2 -/
  | early (window breath cunit : Nat)
  deriving DecidableEq, Repr

/-- A change an activation will make visible at its seal (R174, R209). -/
inductive Pending where
  /-- an accepted append: key of the tail record, first LBA, blocks -/
  | append (record lba blocks : Nat)
  | unmap (lba blocks : Nat)
  deriving DecidableEq, Repr

/-- One activation: one run of one program on one thread (R161). -/
structure Activation where
  work : Work
  progId : Nat
  version : Nat
  codeWords : Nat
  /-- word index of the next instruction -/
  pc : Nat
  /-- g1 to g31; unlisted registers hold 0 (R165) -/
  regs : Table Word := []
  caps : Table Cap := []
  frame : Bytes
  scratch : List Host.Cell := []
  staging : List Host.Cell := []
  /-- kind 0: the command's data and check-field buffers -/
  data : List Host.Cell := []
  checks : List Host.Cell := []
  tickets : Table Ticket := []
  marks : List Mark := []
  pendings : List Pending := []
  /-- reads and requests of the command's data still outstanding; no instruction runs before they end (R137) -/
  awaiting : Nat := 0
  /-- HOST_LIST: bus address and length of each element (R135) -/
  list : List (Nat × Nat) := []
  /-- kinds 1 and 2: coverage bitmap that c5 shows, and its cunits (R163, R169) -/
  covered : Nat := 0
  cunits : Nat := 0
  /-- the seal of `post` or `halt` has been made and is on its way to its durability point (R142) -/
  sealed : Bool := false
  /-- blocks of the appends that have completed -/
  appended : Nat := 0
  /-- kinds 1 and 2: first check status that `zc` found (R102) -/
  checkStatus : Nat := 0
  posted : Bool := false
  noted : Bool := false
  sinsn : Nat := 0
  /-- binding's INSN_LIMIT (R183) -/
  limit : Nat
  nsid : Nat
  /-- key of the completion queue that receives the post -/
  cq : Nat
  stag : Nat
  gen : Nat
  /-- kind 0: opcode of the command; 0 for windows -/
  opcode : Nat
  deriving DecidableEq, Repr

/-- A program the module holds (R179, R181). -/
structure Program where
  version : Nat
  entry : Nat
  scratch : Nat
  kinds : Nat
  code : List Word32
  deriving DecidableEq, Repr

/-- A binding of a program to a target (R183). -/
structure Binding where
  prog : Nat
  limit : Nat
  param : Bytes
  deriving DecidableEq, Repr

/-- What work runs under its generation (R27, R184): the program, its values and the binding's. -/
structure Bound where
  prog : Nat := 0
  version : Nat := 0
  entry : Nat := 0
  scratch : Nat := 0
  codeWords : Nat := 0
  limit : Nat := 256
  param : Bytes := []
  deriving DecidableEq, Repr

/-- The chanter array. Thread t of chanter c stands under 8c + t; bindings under NSID × 4 + opcode and 2^20 + window. -/
structure Chanters where
  threads : Table Activation := []
  fenced : List Nat := []
  programs : Table Program := []
  bindings : Table Binding := []
  /-- notes posted in the second `noteSecond`, and notes dropped since the last one posted (R214) -/
  noteSecond : Nat := 0
  notes : Nat := 0
  notesDropped : Nat := 0
  deriving DecidableEq, Repr

/-- The compression engine: lanes 0-15 are the compress sides, 16-31 the decompress sides (R234). -/
structure Compression where
  fenced : List Nat := []
  /-- undecodable streams of this second -/
  secondUndecodable : Nat := 0
  deriving DecidableEq, Repr

/-- The life of a key-table entry (R237). -/
inductive KeyLife where
  | live | destroying
  deriving DecidableEq, Repr

/-- A key-table entry that is not EMPTY (R237, R238). -/
structure KeyEntry where
  /-- 1 KEK, 2 DEK -/
  type : Nat
  key : Bytes
  life : KeyLife
  /-- generation under which it began to be destroyed, and whether its namespaces are to be erased (R239) -/
  destroyGen : Nat := 0
  erase : Bool := false
  deriving DecidableEq, Repr

/-- A saved context of a stopped cipher operation (R247, R248). -/
structure CipherContext where
  /-- thread and ticket of the operation -/
  thread : Nat
  ticket : Nat
  /-- sequence number its wrapping nonce was made of -/
  seq : Nat
  deriving DecidableEq, Repr

/-- The test mode of lanes K63 and X31 (R252). -/
structure CipherTest where
  key : Bytes := []
  deriving DecidableEq, Repr

/-- The cipher engine: lanes 0-63 are K00-K63, 64-95 are X00-X31. -/
structure Cipher where
  keys : Table KeyEntry := []
  fenced : List Nat := []
  /-- CIP_KSK_EPOCH -/
  kskEpoch : Nat := 0
  /-- entropy sources failing, DRBG stopped, masks unreseeded (R250) -/
  failing : List Nat := []
  stopped : Bool := false
  stoppedAt : Nat := 0
  maskStale : Bool := false
  /-- sequence number of the next DRBG state (reseeds so far) -/
  reseeds : Nat := 0
  maskReseeds : Nat := 0
  gcmContexts : List CipherContext := []
  xtsContexts : List CipherContext := []
  contextSeq : Nat := 0
  test : CipherTest := {}
  deriving DecidableEq, Repr

end Sys2Proof.Machine
end

