-- ==== Sys2Proof/Machine/QueueState.lean ====
section
/-! DEFINITION. Work queues, completions, commands in flight, transactions and the control path's state
(R109 to R155, R345 to R364). -/

namespace Sys2Proof.Machine

/-- Where a ring lives (R110). -/
inductive Placement where
  | host | bell | peer
  deriving DecidableEq, Repr

/-- The ARBITRATION field of a submission queue (R149). -/
structure Arbitration where
  w0 : Nat := 16
  w1 : Nat := 16
  w2 : Nat := 16
  w3 : Nat := 16
  share : Nat := 16
  urgentEn : Bool := true
  urgentBudget : Nat := 64
  deriving DecidableEq, Repr

/-- A submission queue. I/O queue n stands under key n, the mouthpiece of client c under 32768 + c. -/
structure Sq where
  place : Placement
  entries : Nat
  addr : Nat := 0
  /-- key of the completion queue it is bound to -/
  cq : Nat
  pollInterval : Nat := 10
  maxInflight : Nat := 256
  /-- index of the next entry the module fetches -/
  head : Nat := 0
  /-- BELL: entries placed by CAPSULEs and not yet fetched, oldest first, each with the SA that brought it -/
  waiting : List (Nat × Bytes) := []
  /-- entries that a poll has taken and that wait for admission, oldest first -/
  taken : List (Nat × Bytes) := []
  /-- the entry at the head of `taken` waits for its descriptor or image (R156) -/
  reading : Bool := false
  fenced : Bool := false
  /-- control client that created the queue -/
  client : Nat := 0
  arb : Arbitration := {}
  urgentLeft : Nat := 64
  shareLeft : Nat := 0
  /-- W_LEFT of classes 0 to 3 -/
  left0 : Nat := 0
  left1 : Nat := 0
  left2 : Nat := 0
  left3 : Nat := 0
  currentClass : Nat := 0
  /-- SQ_DELETE has taken effect and waits for the commands in flight: sequence key of that SQ_DELETE -/
  deleting : Option Nat := none
  deriving DecidableEq, Repr

/-- A completion entry (R113). -/
inductive Completion where
  /-- KIND 0 -/
  | command (tag sqid sqHead status seq result breathLo : Nat)
  /-- KIND 1 (`summary = false`) and KIND 2 (`summary = true`) -/
  | breath (summary : Bool) (window status breathLo committed missing bad : Nat) (short : Bool) (count : Nat)
  deriving DecidableEq, Repr

/-- A completion queue. I/O queue n stands under key n, the mouthpiece of client c under 32768 + c. -/
structure Cq where
  place : Placement
  entries : Nat
  addr : Nat := 0
  /-- PEER: SA that carries RESPONSE, and the peer's CQ number -/
  sa : Nat := 0
  peerCq : Nat := 0
  /-- STALL_LIMIT_MS; 0 = CMD_STALL_LIMIT applies -/
  stallMs : Nat := 0
  vector : Nat := 0
  irqEn : Bool := false
  tail : Nat := 0
  /-- HOST: slots known to be free ahead of the tail (R114) -/
  free : Nat := 0
  /-- PEER: marked full by a NACK or a give-up (R115) -/
  peerFull : Bool := false
  /-- PEER: entries of the RESPONSE outstanding, oldest first, and its MSG_ID -/
  outstanding : List Completion := []
  outstandingMsg : Nat := 0
  /-- overflow chain, oldest first (R123) -/
  chain : List Completion := []
  /-- QUEUE_STALLED has been posted and QUEUE_RESUMED not yet -/
  stalled : Bool := false
  /-- instant at which the stall timer last started, and at which the stall began -/
  stallStart : Nat := 0
  stallBegan : Nat := 0
  fenced : Bool := false
  /-- fenced-queue record, oldest first (R124) -/
  record : List Completion := []
  client : Nat := 0
  deriving DecidableEq, Repr

/-- How far a command in flight has come (R146, R150, R153). -/
inductive Stage where
  /-- admitted, waiting for a chanter thread or for dispatch -/
  | waiting
  /-- given a chanter thread; catchable until its catch point -/
  | dispatched
  /-- past its catch point (R153) -/
  | passed
  /-- recorded in the client's open transaction (R130) -/
  | recorded
  /-- a TXN_COMMIT or TUNE that waits for its edge, or an SQ_DELETE or REGION_REVOKE that waits for its drain -/
  | awaiting
  /-- to be sent to the partner once its data has been read and the commands before it have left (R155) -/
  | leaving
  /-- sent to the partner (R155) -/
  | forwarded
  deriving DecidableEq, Repr

/-- A command in flight. It stands under its admission count (ADMIT_SEQ bits [62:0]). -/
structure InFlight where
  /-- key of the submission queue; forwarded commands of the partner carry 40000 -/
  sq : Nat
  /-- SA through which the entry arrived; 0 for HOST queues -/
  sa : Nat := 0
  entry : Bytes
  /-- descriptor, image or list the module read through the data pointer -/
  payload : Bytes := []
  /-- source of R138 where that read failed -/
  payloadFail : Nat := 0
  /-- admission stamp: instant and breath (R42) -/
  stamp : Nat
  breath : Nat
  /-- configuration generation under which it runs (R27) -/
  gen : Nat
  stage : Stage
  /-- admission count of the partner that forwarded it, where it is a forwarded command -/
  origin : Option Nat := none
  /-- a command forwarded to the partner: the ADMIT_SEQ it got there, once the mirror has told it -/
  ownerSeq : Option Nat := none
  /-- READ, WRITE and DEALLOCATE: what runs for it -/
  bound : Bound := {}
  deriving DecidableEq, Repr

/-- A transaction that has been opened (R355). -/
structure Txn where
  client : Nat
  number : Nat
  beginGen : Nat
  beganAt : Nat
  /-- admission counts of the recorded commands, oldest first -/
  recorded : List Nat := []
  /-- admission count and stamp of its TXN_COMMIT, once admitted -/
  commit : Option (Nat × Nat) := none
  deriving DecidableEq, Repr

/-- A transaction object: class and unit (R359). -/
abbrev ObjectId := Nat × Nat

/-- What a transaction that took effect read and wrote (R359). -/
structure TxnTrace where
  /-- generation after it -/
  gen : Nat
  /-- breath of its edge -/
  edge : Nat
  reads : List ObjectId
  writes : List ObjectId
  deriving DecidableEq, Repr

/-- The phases of a control reset (R361). -/
inductive ControlReset where
  | idle
  /-- fetching stopped; waiting for commands in flight and the edge. Cause 0 register, 1 automatic -/
  | draining (cause : Nat)
  /-- the edge of step 3 has passed; fetching resumes with CONTROL_RESET_DONE -/
  | restarting (cause rolledBack : Nat)
  deriving DecidableEq, Repr

/-- The control path: Drone, stewards, transactions (R345 to R364). -/
structure Control where
  /-- CTL_CONFIG_GEN -/
  gen : Nat := 0
  /-- number of the last transaction opened (R355) -/
  txnCount : Nat := 0
  /-- the open transaction of each client -/
  txns : Table Txn := []
  /-- transactions whose TXN_COMMIT has been admitted and awaits its edge, in arrival order -/
  committing : List Txn := []
  traces : List TxnTrace := []
  /-- an internal transaction of the Drone that awaits its edge: the sets to narrow (R314) -/
  narrowing : List Nat := []
  frozen : Bool := false
  frozenClient : Nat := 0
  frozenIndex : Nat := 0
  frozenBreath : Nat := 0
  frozenAt : Nat := 0
  reset : ControlReset := .idle
  /-- Drone cores fenced (R346) -/
  coresFenced : List Nat := []
  /-- a re-copy is due at the next edge, and one is running (R347) -/
  recopyDue : Bool := false
  recopying : Bool := false
  recopyFrom : Nat := 0
  /-- end of the latest re-copy (R348) -/
  recopyEnd : Nat := 0
  degraded : Bool := false
  halted : Bool := false
  recopies : Nat := 0
  /-- stewards restarting (R353) -/
  stewardsRestarting : List Nat := []
  deriving DecidableEq, Repr

/-- The command front end (R109 to R155). -/
structure Front where
  sqs : Table Sq := []
  cqs : Table Cq := []
  /-- commands in flight, by admission count -/
  flight : Table InFlight := []
  /-- admission count: ADMIT_SEQ bits [62:0] of the next admission (R145) -/
  admitNext : Nat := 0
  lastUrgentSq : Nat := 0
  currentSq : Nat := 0
  /-- RECORD_STORE_FULL has been posted and no entry has been freed since (R126) -/
  storeFullPosted : Bool := false
  /-- client 0's mouthpiece record after an endpoint reset (R457) -/
  mp0Record : List Completion := []
  deriving DecidableEq, Repr

/-- One item of an event record: width in bytes (1, 4, 8 or 16) and value (R479). -/
abbrev Item := Nat × Nat

/-- An event record (R478). -/
structure EventRecord where
  cls : Nat
  code : Nat
  unit : Nat
  breath : Nat
  data : List Item
  deriving DecidableEq, Repr

/-- One client's event history (R482 to R484). -/
structure EventClient where
  /-- EVENTS_POSTED: number of the next record -/
  posted : Nat := 0
  /-- last 4,096 records, newest first -/
  history : List EventRecord := []
  /-- number of the next record to deliver -/
  delivered : Nat := 0
  /-- records lost to delivery since the last EVENTS_LOST, and the number of the first of them -/
  lost : Nat := 0
  firstLost : Nat := 0
  deriving DecidableEq, Repr

/-- What a non-posted read of the module is for (R455). -/
inductive ReadPurpose where
  /-- poll of a submission queue: the entry at its head -/
  | poll (sq head : Nat)
  /-- the entries after an owned one that a poll has found at the head (R116) -/
  | pollRest (sq head : Nat) (first : Bytes)
  /-- refresh of a completion queue's free-slot count: its key, and its tail when the read was issued -/
  | scan (cq tail : Nat)
  /-- descriptor or image of the entry at the head of a submission queue (R156) -/
  | descriptor (sq : Nat)
  /-- HOST_LIST list of the command with this admission count (R135) -/
  | list (seq : Nat)
  /-- data or check fields of a command: admission count, offset in the buffer, check fields -/
  | data (seq offset : Nat) (checks : Bool)
  deriving DecidableEq, Repr

/-- A BAR2 request: tag of a read, or data of a write, at a BAR2 offset. -/
structure Bar2Request where
  addr : Nat
  len : Nat
  write : Option Bytes
  tag : Nat
  deriving DecidableEq, Repr

/-- The PCIe management endpoint (R443 to R459). -/
structure Endpoint where
  /-- outstanding non-posted reads by tag -/
  reads : Table ReadPurpose := []
  /-- reads that wait for a free tag, oldest first: purpose, bus address and length -/
  waitingReads : List (ReadPurpose × Nat × Nat) := []
  /-- tags in quarantine -/
  quarantined : List Nat := []
  /-- vectors that software has unmasked -/
  unmasked : List Nat := []
  functionMasked : Bool := false
  /-- vectors with the pending bit set -/
  pendingVectors : List Nat := []
  /-- vectors inside their IRQ_GAP, and those of them with a merged message due -/
  gapRunning : List Nat := []
  gapDue : List Nat := []
  /-- windows held by PEP_WIN_HOLD and their requests, oldest first -/
  heldRequests : List Bar2Request := []
  /-- counts of the current second for PEP_ACCESS_SUMMARY: bad accesses, window misses, timeouts -/
  secondCounts : Table Nat := []
  deriving DecidableEq, Repr

end Sys2Proof.Machine
end

