-- ==== Sys2Proof/Machine/TransportState.lean ====
section
/-! DEFINITION. The state of Cuchail: security associations, the replay filter, reed contexts, messages the
module sends, ports (R55 to R86), and of regions and capture windows (R87 to R108). -/

namespace Sys2Proof.Machine

/-- The states of a security association (R78). -/
inductive SaState where
  | free | enrolled | active | expired
  deriving DecidableEq, Repr

/-- One key slot of a security association: keys and salts of both directions (R79). -/
structure SaKeys where
  rxKey : Bytes
  txKey : Bytes
  rxSalt : Bytes
  txSalt : Bytes
  deriving DecidableEq, Repr

/-- A REPLY kept for 1 s under the peer nonce of its INIT (R80). -/
structure StoredReply where
  nonce : Bytes
  reply : Bytes
  deriving DecidableEq, Repr

/-- A security association (R78 to R82). -/
structure Sa where
  state : SaState := .enrolled
  /-- the peer's endpoint identifier and IP address (IPv4 in mapped form) -/
  endpoint : Nat := 0
  addr : Nat := 0
  secret : Bytes := []
  /-- control client served, 0 = data -/
  client : Nat := 0
  police : Bool := false
  rate : Nat := 0
  burst : Nat := 0
  /-- bucket level in millionths of a bit, and instant of its last filling -/
  bucket : Nat := 0
  filledAt : Nat := 0
  /-- key slots that KEY_PHASE 0 and 1 select -/
  slot0 : Option SaKeys := none
  slot1 : Option SaKeys := none
  /-- keys that a REPLY installed and no packet has used yet: key slot, START_MSG_ID of the peer, REKEY -/
  pendingSlot : Option (Nat × Nat × Bool) := none
  /-- KEY_PHASE the module sends under -/
  phase : Nat := 0
  /-- the old phase is still accepted (R80) -/
  oldPhase : Bool := false
  /-- replay floor (R70) and next MSG_ID of the module (R64) -/
  floor : Nat := 0
  nextMsg : Nat := 0
  /-- greatest MSG_ID received (R81) -/
  rxHigh : Nat := 0
  /-- messages received and sent since the last key install (R81) -/
  rxMessages : Nat := 0
  txMessages : Nat := 0
  rekeyDue : Bool := false
  /-- messages with an ACK entry due, and NACK entries due: MSG_ID, PKT_INDEX, REASON, DETAIL -/
  ackDue : List Nat := []
  nackDue : List (Nat × Nat × Nat × Nat) := []
  /-- packets admitted since the last ACK -/
  unacked : Nat := 0
  /-- egress point learnt from the last authenticated packet (R334) -/
  port : Nat := 0
  replies : List StoredReply := []
  /-- failed tag checks of this second, for AUTH_FAIL -/
  authFails : Nat := 0
  deriving DecidableEq, Repr

/-- One replay filter entry (R70). -/
structure ReplayEntry where
  sa : Nat
  msgId : Nat
  type : Nat
  target : Nat
  pktCount : Nat
  /-- bit i = packet i admitted -/
  bitmap : Nat
  createdAt : Nat
  /-- OK, or the NACK: PKT_INDEX, REASON, DETAIL -/
  refusal : Option (Nat × Nat × Nat)
  /-- packets that an ACK sent has shown as admitted -/
  acked : Nat := 0
  deriving DecidableEq, Repr

/-- The kinds of a reed context (R74). -/
inductive ReedKind where
  | queue | region | window
  deriving DecidableEq, Repr

/-- A reed context (R74): one target bound to one SA. -/
structure Reed where
  sa : Nat
  kind : ReedKind
  /-- SQ number, region index or window number -/
  target : Nat
  /-- region-table index, for REGION and WINDOW -/
  index : Nat := 0
  mayWrite : Bool := false
  mayRead : Bool := false
  maySubmit : Bool := false
  /-- QUEUE: key of the completion queue that gives the RESPONSE route -/
  cq : Nat := 0
  packets : Nat := 0
  bytes : Nat := 0
  deriving DecidableEq, Repr

/-- What a READ_REQ of the module fetches. -/
inductive FetchFor where
  /-- descriptor or image of the entry at the head of a submission queue (R156) -/
  | descriptor (sq : Nat)
  /-- data, or check fields, of the command with this admission count (R134) -/
  | data (seq : Nat) (checks : Bool)
  deriving DecidableEq, Repr

/-- Why the module sends a message; decides what its end does (R69, R137, R138). -/
inductive MessageFor where
  /-- RESPONSE of a completion queue -/
  | response (cq : Nat)
  /-- READ_RESP to a peer's READ_REQ -/
  | readResp
  /-- READ data of a command to the peer (DATA_WRITE) -/
  | readData (seq : Nat)
  /-- READ_REQ of the module -/
  | fetch (what : FetchFor)
  /-- downstream copy of a window packet (R107) -/
  | downstream (window breath : Nat)
  /-- EVENT to a client; number of the record after its last one -/
  | event (client upTo : Nat)
  deriving DecidableEq, Repr

/-- A message the module has sent and whose packets are not all acknowledged (R68). -/
structure OutMessage where
  sa : Nat
  msgId : Nat
  type : Nat
  target : Nat
  /-- one packet each: OFFSET, BREATH_LO and payload -/
  packets : List (Nat × Nat × Bytes)
  /-- bit i = packet i acknowledged; packets refused by a NACK are acknowledged with it -/
  acked : Nat
  /-- transmissions made of each packet -/
  tries : List Nat
  purpose : MessageFor
  deriving DecidableEq, Repr

/-- A READ_REQ the module has issued and the bytes received for it so far (R62, R72). -/
structure OutRequest where
  sa : Nat
  msgId : Nat
  what : FetchFor
  length : Nat
  data : List Host.Cell
  received : Nat
  deriving DecidableEq, Repr

/-- A packet waiting in a port's fetch buffer (R76). -/
structure WaitingPacket where
  port : Nat
  frame : Bytes
  /-- decrypted payload of a packet that waits at step 7 -/
  text : Bytes
  arrivedAt : Nat
  /-- step it waits at: 2 (SA) or 7 (reed context) -/
  step : Nat
  /-- SA index, and for step 7 the target -/
  sa : Nat
  target : Nat
  msgId : Nat
  pktIndex : Nat
  deriving DecidableEq, Repr

/-- What one port holds beside its registers. -/
structure Port where
  bucket : Nat := 0
  filledAt : Nat := 0
  up : Bool := false
  fenced : Bool := false
  /-- last RX_POWER samples, newest first, at most 5; signed 0.01 dBm -/
  rxPower : List Int := []
  temps : List Int := []
  /-- malformed, policer and fetch-buffer drops, and rejected INITs, of this second -/
  secondMalformed : Nat := 0
  secondPolice : Nat := 0
  secondFetch : Nat := 0
  secondKex : Nat := 0
  /-- the last second with a neighbour answer, and the answers in it (R59) -/
  answers : Nat × Nat := (0, 0)
  /-- the filtered receive power is below its limit -/
  rxLow : Bool := false
  deriving DecidableEq, Repr

/-- The host port complex. -/
structure Transport where
  sas : Table Sa := []
  /-- replay filter, oldest entry first -/
  replay : List ReplayEntry := []
  /-- reed contexts by SA index × 2^18 + kind space + target -/
  reeds : Table Reed := []
  /-- SAs and reed contexts resident on chip, most recently used first (R75, R78) -/
  saCache : List Nat := []
  reedCache : List Nat := []
  fetching : List WaitingPacket := []
  /-- messages under SA index × 2^32 + MSG_ID -/
  sent : Table OutMessage := []
  requests : Table OutRequest := []
  ports : Table Port := []
  /-- the last second with an INIT answered, and the INITs answered in it (R80) -/
  kexAnswered : Nat × Nat := (0, 0)
  /-- age of the last departing entry in µs, and lowest early departure of this second (R71) -/
  horizonUs : Nat := 64000
  earlyAge : Option Nat := none
  deriving DecidableEq, Repr

/-- What a region-table index holds (R87 to R94). -/
inductive RegionKind where
  | buffer
  | window (number : Nat)
  deriving DecidableEq, Repr

/-- The life of a region-table index. -/
inductive RegionLife where
  | held
  /-- revoked at an edge, draining; admission count of its REGION_REVOKE, none for WINDOW_DELETE -/
  | revoking (seq : Option Nat)
  | released (since : Nat)
  deriving DecidableEq, Repr

/-- One entry of the region table. -/
structure Region where
  gen : Nat
  kind : RegionKind
  life : RegionLife
  length : Nat
  /-- bytes of the staging area that it holds (R90) -/
  bytes : Nat
  mayWrite : Bool
  mayRead : Bool
  /-- contents of a buffer region; unlisted bytes are 0 (R89) -/
  mem : List Host.Cell
  /-- client that registered it -/
  client : Nat
  deriving DecidableEq, Repr

/-- The states of a capture window (R105). -/
inductive WindowMode where
  | disarmed | armed | draining | fenced
  deriving DecidableEq, Repr

/-- One slot of a window's ring (R98, R99). -/
structure Slot where
  /-- breath whose data it holds -/
  breath : Option Nat
  data : List Host.Cell
  checks : List Host.Cell
  /-- coverage bitmap, bit i = block i -/
  covered : Nat
  /-- blocks that each packet admitted to the slot carries, oldest first (R343) -/
  carried : List Nat := []
  /-- blocks read into compression, bit i = block i -/
  read : Nat
  /-- the commit program has not yet read the whole slot -/
  held : Bool
  deriving DecidableEq, Repr

/-- A breath of a window from its first packet to its completion (R99 to R104). -/
structure WindowBreath where
  /-- admission count of its commit, once closed (R147) -/
  seq : Option Nat := none
  /-- configuration generation under which it commits -/
  gen : Nat := 0
  /-- what its commit runs, fixed at the close -/
  bound : Bound := {}
  /-- coverage at the close, bit i = block i -/
  covered : Nat := 0
  /-- cunits taken by early-cunit activations, bit i = cunit i (R163) -/
  taken : Nat := 0
  /-- blocks appended durably or refused, bit i = block i -/
  settled : Nat := 0
  missed : Bool := false
  short : Bool := false
  /-- packets of the downstream copy given up -/
  givenUp : Nat := 0
  /-- the commit activation has been started -/
  started : Bool := false
  /-- blocks of the commit activation's seal, once it has sealed -/
  sealed : Option Nat := none
  /-- blocks committed and refused by early activations, and their first non-OK status (R163) -/
  earlyCommitted : Nat := 0
  earlyBad : Nat := 0
  earlyStatus : Nat := 0
  /-- cunits whose early activation has been started, and has ended, bit i = cunit i -/
  earlyStarted : Nat := 0
  earlyEnded : Nat := 0
  /-- recovered breath of a lost owner (R390) -/
  recovered : Bool := false
  deriving DecidableEq, Repr

/-- A capture window (R95 to R108). -/
structure Window where
  nsid : Nat
  baseLba : Nat
  rangeBreaths : Nat
  slotBlocks : Nat
  slots : Nat
  deadline : Nat
  cq : Nat
  appTag : Nat
  wrap : Bool
  checkCarried : Bool
  replPartner : Bool
  replDownstream : Bool
  quiet : Bool
  overrideExposed : Bool
  coder : Nat
  program : Nat
  downstreamKey : Nat
  /-- region-table index of its window region -/
  region : Nat
  client : Nat
  mode : WindowMode := .disarmed
  firstBreath : Nat := 0
  everArmed : Bool := false
  /-- edge at which DRAINING began -/
  drainFrom : Nat := 0
  /-- last breath committed -/
  lastBreath : Nat := 0
  ring : Table Slot := []
  breaths : Table WindowBreath := []
  late : Nat := 0
  slotBusy : Nat := 0
  admitted : Nat := 0
  breathsMissed : Nat := 0
  secondLate : Nat := 0
  secondBusy : Nat := 0
  deriving DecidableEq, Repr

/-- A packet copy over PL whose acknowledgement holds back the camera's ACK (R106, R333). -/
structure PlCopy where
  sa : Nat
  msgId : Nat
  pktIndex : Nat
  window : Nat
  breath : Nat
  deriving DecidableEq, Repr

/-- Regions and windows. -/
structure Memory where
  regions : Table Region := []
  windows : Table Window := []
  plCopies : List PlCopy := []
  deriving DecidableEq, Repr

end Sys2Proof.Machine
end

