-- ==== Sys2Proof/Machine/ModuleState.lean ====
section
/-! DEFINITION. Trust and update (R365 to R380), the partner and fail-over (R381 to R399), power and insertion (R419 to
R442), counters and tagging (R460 to R472), start-up (R486 to R492), memory protection counts (R485) and the management
Ethernet port (R498, R499). -/

namespace Sys2Proof.Machine

/-- A measurement log entry (R368). -/
structure Measurement where
  reg : Nat
  type : Nat
  breath : Nat
  detail : Nat
  digest : Bytes
  deriving DecidableEq, Repr

/-- An attestation bank's request (R371): STATE 0 idle, 1 busy, 2 DONE, 3 REFUSED. -/
structure Bank where
  state : Nat := 0
  reason : Nat := 0
  length : Nat := 0
  /-- operation, nonce, DEST and OFFSET sampled at GO -/
  op : Nat := 0
  nonce : Bytes := []
  dest : Nat := 0
  offset : Nat := 0
  deriving DecidableEq, Repr

/-- STAGE_STATE (R375). -/
inductive StageState where
  | empty | manifest | ready | activating
  deriving DecidableEq, Repr

/-- Trust and firmware update. -/
structure Trust where
  /-- M0 to M9, 64 bytes each -/
  registers : Table Bytes := []
  /-- measurement log, newest first -/
  log : List Measurement := []
  truncated : Bool := false
  banks : Table Bank := []
  stage : StageState := .empty
  manifest : Bytes := []
  /-- chunks of each part, newest first: offset and bytes -/
  chunks : Table (List (Nat × Bytes)) := []
  verified : List Nat := []
  partnerCopy : Bool := false
  slotIncomplete : Bool := false
  slotTries : Nat := 0
  /-- running manifest and parts' VERSIONs -/
  running : Bytes := []
  svnMin : Nat := 0
  bootCount : Nat := 0
  /-- instant at which the activation's edge fell, old VERSION -/
  activatedAt : Nat := 0
  oldVersion : Nat := 0
  akPending : Bool := false
  boreSeq : Nat := 0
  /-- recovery copy held for the partner -/
  partnerManifest : Bytes := []
  deriving DecidableEq, Repr

/-- Partner states (R381). -/
inductive PartnerState where
  | absent | syncing | standbyReady | failed
  deriving DecidableEq, Repr

/-- A heartbeat (R384). -/
structure Heartbeat where
  seq : Nat
  slot : Nat
  ready : Bool
  updating : Bool
  degraded : Bool
  owned : Nat
  breath : Nat
  edgePs : Nat
  ckptJseq : Nat
  configGen : Nat
  version : Nat
  deriving DecidableEq, Repr

/-- A completion or event message journalled before it is sent (R390). -/
structure SentResponse where
  sa : Nat
  msgId : Nat
  cq : Nat
  entries : List Completion
  firstSent : Nat
  deriving DecidableEq, Repr

/-- A set being handed to or taken from the partner (R394). -/
structure Handback where
  /-- edge e of R394 -/
  edge : Nat
  /-- this module is the new owner -/
  incoming : Bool
  /-- instant of the request; at the new owner, of HANDOVER once received -/
  requestedAt : Nat
  /-- HANDOVER has been received -/
  handedOver : Bool := false
  deriving DecidableEq, Repr

/-- The persistent state of one set as its journal records, tail bytes, map and breaths give it: what the partner's mirror
share holds of the set (R272, R333, R388). -/
structure SetImage where
  set : StripeSet
  /-- namespaces on the set, with their maps -/
  spaces : Table Namespace
  records : Table Record
  seals : List Seal
  journal : List JournalRecord
  nextJseq : Nat
  /-- windows on the set, without their slots' contents -/
  windows : Table Window
  /-- commands in flight that the partner forwarded: its admission count, and the ADMIT_SEQ each got here (R145) -/
  forwarded : List (Nat × Nat) := []
  deriving DecidableEq, Repr

/-- Installed state that a standby-ready partner holds a copy of, at one configuration generation (R236, R391, R393). -/
structure Installed where
  gen : Nat := 0
  sas : Table Sa := []
  keys : Table KeyEntry := []
  reeds : Table Reed := []
  /-- window regions -/
  regions : Table Region := []
  cqs : Table Cq := []
  programs : Table Program := []
  bindings : Table Binding := []
  /-- sets being handed to the partner, and the edge e of R394 of each -/
  handbacks : Table Nat := []
  deriving DecidableEq, Repr

/-- What mirroring brings over PL: a set's state, a message journalled before it is sent, and one that has been acknowledged (R333, R390).
[log 87: DESIGN CHOICE] -/
inductive Mirrored where
  | set (n : Nat) (x : SetImage)
  | response (r : SentResponse)
  | responded (sa msgId : Nat)
  deriving DecidableEq, Repr

/-- A packet of a partner's window in the mirror of its slot (R106). -/
structure SlotCopy where
  window : Nat
  breath : Nat
  offset : Nat
  data : Bytes
  checks : Bytes
  deriving DecidableEq, Repr

/-- The partner as this module sees it. -/
structure Peer where
  state : PartnerState := .absent
  selfReady : Bool := false
  gateClosed : Bool := false
  aliveIn : Bool := false
  ownerIn : Bool := false
  /-- this module's alive and owner lines -/
  aliveOut : Bool := false
  ownerOut : Bool := false
  linkUp : Bool := false
  /-- the pair key, once agreed -/
  pairKey : Option Bytes := none
  seq : Nat := 0
  last : Option Heartbeat := none
  /-- instant at which the last heartbeat was accepted -/
  lastAt : Nat := 0
  resyncTries : Nat := 0
  resyncFrom : Nat := 0
  lastGapUs : Nat := 0
  /-- sets being taken over and the instant of the last heartbeat before -/
  taking : List Nat := []
  takeFrom : Nat := 0
  /-- sets in transition, towards this module, whose recovery has ended -/
  taken : List Nat := []
  /-- sets return to a repaired partner at the next edge, where FAILBACK is AUTO (R392) -/
  returnDue : Bool := false
  /-- breaths completed ABORTED and commands run again in this take-over -/
  takeAborted : Nat := 0
  takeRerun : Nat := 0
  handbacks : Table Handback := []
  /-- copies held for the partner: installed state, sets, slots and journalled messages -/
  installed : Installed := {}
  sets : Table SetImage := []
  slots : List SlotCopy := []
  theirs : List SentResponse := []
  /-- RESPONSE messages of this module not yet acknowledged -/
  responses : List SentResponse := []
  /-- shelves whose route now uses ALTERNATE (R396) -/
  alternate : List Nat := []
  deriving DecidableEq, Repr

/-- Inlet states (R423). -/
inductive InletState where
  | wait | delay | ramp | on | fault | retry
  deriving DecidableEq, Repr

/-- Bay 12 V states (R426). -/
inductive BayPower where
  | empty | delay | ramp | on | fault | retry | off
  deriving DecidableEq, Repr

/-- One bay's power channels. -/
structure BayChannel where
  state : BayPower := .empty
  present : Bool := false
  aux : Bool := false
  cause : Nat := 0
  tries : Nat := 0
  shared : Bool := false
  /-- the insertion delay has passed, and the ramp is held in DELAY (R431, R492) -/
  held : Bool := false
  deriving DecidableEq, Repr

/-- A dump slot (R436). -/
structure DumpSlot where
  complete : Bool
  breath : Nat
  jseq : Nat
  owned : Nat
  deriving DecidableEq, Repr

/-- The power and insertion subsystem. -/
structure Power where
  inlet : InletState := .wait
  cause : Nat := 0
  tries : Nat := 0
  seated : Bool := false
  inWindow : Bool := false
  budget : Bool := false
  stale : List Nat := []
  bays : Table BayChannel := []
  /-- filtered readings by sensor: 0 inlet mV, 1 inlet mA, 2 bank mV, 3 inlet mW, 16 + 3n + k bay n (12 V mV, 12 V mA, aux mA) -/
  readings : Table Nat := []
  armed : Bool := false
  full : Bool := false
  charging : Bool := false
  capMf : Nat := 0
  wornPosted : Bool := false
  /-- 0 none, 1 COMPLETE, 2 INCOMPLETE -/
  lastSave : Nat := 0
  failing : Option Nat := none
  saving : Option Nat := none
  dumpA : Option DumpSlot := none
  dumpB : Option DumpSlot := none
  savedMs : Nat := 0
  savedJ : Nat := 0
  saveCause : Nat := 0
  saveReport : Bool := false
  fansFailed : List Nat := []
  rpm : Table Nat := []
  duty : Nat := 100
  /-- die and inlet-air samples: newest first, at most 5, by sensor -/
  temps : Table (List Int) := []
  tempStale : List Nat := []
  thermal : Bool := false
  persistBreath : Nat := 0
  deriving DecidableEq, Repr

/-- Instruction tagging of one chanter (R469). -/
structure TagUnit where
  countdown : Nat
  generator : Nat
  /-- the count has reached 0 and the tagged instruction's record has not been begun: its thread, program and kind -/
  due : Option (Nat × Nat × Nat) := none
  /-- a tagged engine instruction waits for its ticket: thread, ticket, instant of issue, and the record so far -/
  waiting : Option (Nat × Nat × Nat × Bytes) := none
  deriving DecidableEq, Repr

/-- The counter collector. A counter's value stands in its CNT_VAL register. -/
structure Counters where
  frozen : Bool := false
  frozenBreath : Nat := 0
  /-- arrival of the write that armed FREEZE_EDGE, and of the one that armed RESUME_EDGE -/
  freezeArm : Option Nat := none
  resumeArm : Option Nat := none
  /-- totals latched at the freeze cycle, by register offset (R466); a total that is not listed was 0 -/
  latched : Table Nat := []
  snapIndex : Nat := 0
  tagIndex : Nat := 0
  /-- records written, and records dropped, in the current second -/
  snapWritten : Nat := 0
  tagWritten : Nat := 0
  secondDrops : Nat × Nat := (0, 0)
  tags : Table TagUnit := []
  deriving DecidableEq, Repr

/-- Start-up (R486 to R491). -/
structure StartUp where
  phase : Nat := 0
  fail : Nat := 0
  dumpUsed : Bool := false
  claimConflict : Bool := false
  peerUnreached : Bool := false
  startMs : Nat := 0
  inletOnAt : Nat := 0
  /-- 0 slot A, 1 slot B, once read (R476) -/
  slot : Option Nat := none
  /-- sets this module claims, and those whose recovery is done -/
  claimed : List Nat := []
  recovered : List Nat := []
  /-- ownership of every set has been settled (R490, R491) -/
  settled : Bool := false
  /-- windows that were ARMED or DRAINING at the save, or hold a breath that had closed (R489) -/
  disarming : List Nat := []
  deriving DecidableEq, Repr

/-- The management Ethernet port. -/
structure Mgmt where
  link : Bool := false
  /-- the last second with an answer, or a datagram, and how many it saw -/
  answered : Nat × Nat := (0, 0)
  sent : Nat × Nat := (0, 0)
  /-- event records waiting for the mirror, oldest first -/
  queue : List EventRecord := []
  deriving DecidableEq, Repr

/-- Corrected words of this second by store code (R481), uncorrectable scrub state. -/
structure Protection where
  corrected : Table Nat := []
  deriving DecidableEq, Repr

end Sys2Proof.Machine
end

