-- ==== Sys2Proof/Machine/SwitchState.lean ====
section
/-! DEFINITION. The switch core's packets and queues and the scheduler's nodes (R325 to R344), and the drive bays'
NVMe state (R400 to R418). -/

namespace Sys2Proof.Machine

/-- Where a landing packet goes in bell (R326). -/
inductive LandingPlace where
  | region (index : Nat)
  | slot (window slot : Nat)
  | queue (sq : Nat)
  deriving DecidableEq, Repr

/-- A packet whose data has not landed (R327, R328). -/
structure LandingPacket where
  place : LandingPlace
  /-- breath label of a window packet, 0 otherwise -/
  breath : Nat
  offset : Nat
  data : Bytes
  /-- window packet: check fields carried (R102) -/
  checks : Bytes
  sa : Nat
  msgId : Nat
  pktIndex : Nat
  /-- the packet's ACK is due only when it has landed (R66), with its ACK_NOW -/
  ack : Option Bool
  deriving DecidableEq, Repr

/-- A packet in an egress queue. -/
structure QueuedPacket where
  /-- frame as it leaves, without preamble and FCS -/
  bytes : Bytes
  cells : Nat
  queuedAt : Nat
  /-- its cells are in the spill area -/
  spilled : Bool
  /-- copy that shares the cells of its landing, and is read back from the landed data (R330, R332) -/
  landed : Bool
  deriving DecidableEq, Repr

/-- An egress queue: point, service and subscriber SA (R336). -/
structure EgressQueue where
  point : Nat
  service : Nat
  sa : Nat
  packets : List QueuedPacket
  deriving DecidableEq, Repr

/-- Settings, shaper and fair-queueing state of one scheduling node (R337 to R339). -/
structure Node where
  rate : Nat := 0
  unlimited : Bool := true
  quota : Bool := false
  sample : Bool := false
  service : Nat := 2
  burst : Nat := 1
  weight : Nat := 1
  queueCells : Nat := 0
  spillKib : Nat := 65536
  /-- tokens, in millionths of a bit -/
  tokens : Nat := 0
  filledAt : Nat := 0
  virtual : Nat := 0
  start : Nat := 0
  finish : Nat := 0
  /-- the child counted as backlogged and eligible at its parent -/
  entered : Bool := false
  deriving DecidableEq, Repr

/-- The switch core and the scheduler. Egress queues stand under (point × 8 + service) × 2^15 + SA; nodes under
subscriber: SA; service: 2^20 + 8 × point + service; port: 2^21 + point; subscriber within service 0 or 1: 2^40 + queue key. -/
structure Switch where
  landing : List LandingPacket := []
  queues : Table EgressQueue := []
  nodes : Table Node := []
  slicesFenced : List Nat := []
  spilling : Bool := false
  /-- cause and instant of a refusal of host ingress under way, and packets refused in it (R331) -/
  refusing : Option (Nat × Nat) := none
  refused : Nat := 0
  /-- cell losses of this second: target kind, target, offset of the first, count (R343) -/
  cellLoss : Option (Nat × Nat × Nat × Nat) := none
  /-- sample records dropped in this second, and written in this second (R342) -/
  sampleDrops : Nat := 0
  samplesWritten : Nat := 0
  deriving DecidableEq, Repr

/-- Bay states of the drive port complex (R412). -/
inductive BayState where
  | empty | qualifying | rejected | qualified | linkLost | faulted
  deriving DecidableEq, Repr

/-- What an NVMe command is for (R405). -/
inductive NvmeUse where
  /-- unit write of a stripe; `again` after one integrity error -/
  | unitWrite (set stripe member : Nat)
  /-- rebuild or repair write -/
  | rebuildWrite (set stripe member : Nat)
  | labelWrite (set copy : Nat)
  | ledgerWrite (set : Nat)
  /-- Flush ahead of a label write's completion -/
  | flush (set copy : Nat)
  /-- read of a record's units -/
  | recordRead (record : Nat)
  | scrubRead (set stripe : Nat)
  /-- admin command: opcode -/
  | admin (opcode : Nat)
  deriving DecidableEq, Repr

/-- A layout as a label lists it: its generation, type, width, the member's index and the bays of its members (R259). -/
structure LabelLayout where
  generation : Nat
  type : Nat
  width : Nat
  member : Nat
  bays : List Nat
  deriving DecidableEq, Repr

/-- A label on a drive (R259): during a reshape it lists both layouts, the newest first (R318). -/
structure Label where
  set : Nat
  identity : Nat
  home : Nat
  layouts : List LabelLayout
  deriving DecidableEq, Repr

/-- What the module knows of a drive (R402, R417). -/
structure Drive where
  capacity : Nat
  plp : Bool
  vid : Nat := 0
  serial : Bytes := []
  firmware : Bytes := []
  label : Option Label := none
  critWarning : Nat := 0
  pctUsed : Nat := 0
  availSpare : Nat := 100
  tempK : Nat := 0
  unitsWritten : Nat := 0
  mediaErrors : Nat := 0
  pollBreath : Nat := 0
  deriving DecidableEq, Repr

/-- One drive bay (R400 to R417). -/
structure Bay where
  state : BayState := .empty
  /-- 0 no link, 1 16, 2 32, 3 64 GT/s; lanes -/
  speed : Nat := 0
  width : Nat := 0
  reason : Nat := 0
  queues : Nat := 0
  drive : Option Drive := none
  /-- FUA on every Write (R407) -/
  fua : Bool := false
  /-- NVMe commands outstanding by CID -/
  commands : Table NvmeUse := []
  nextCid : Nat := 0
  quarantined : List Nat := []
  /-- member writes that wait for the link (R413) -/
  waiting : List NvmeUse := []
  linkDownAt : Nat := 0
  /-- identify retries made while the other module prepares (R403) -/
  identifyTries : Nat := 0
  /-- health conditions of the last valid log, bit n = Critical Warning bit n, bit 8 = wear (R415) -/
  conditions : Nat := 0
  failedPolls : Nat := 0
  polling : Bool := false
  /-- buffers issued to the drive: base and length (R401) -/
  issued : List (Nat × Nat) := []
  /-- counts since insertion for page 0x05: read timeouts, late completions, write failures, bad DMA -/
  readTimeouts : Nat := 0
  lateCpl : Nat := 0
  writeFailures : Nat := 0
  badDma : Nat := 0
  secondTimeouts : Nat := 0
  secondBadDma : Nat := 0
  firstBadDma : Nat := 0
  deriving DecidableEq, Repr

end Sys2Proof.Machine
end

