-- ==== Sys2Proof/Syntax.lean ====
section
/-! DEFINITION. The commands of the module: one constructor for every row of the opcode table, with what the outside
world supplies to it (frames, entries, instants in ps of the local oscillator, outcomes of media and pins) as operands. -/

namespace Sys2Proof

open Sys2Proof.Machine

/-- What the module reads through a command's data pointer (R156): the bytes, or the source of R138 that failed. -/
structure Fetched where
  payload : Bytes
  /-- 0 = read, otherwise a source code of R131 -/
  fail : Nat
  deriving DecidableEq, Repr

/-- A command entry as it reaches admission (R112, R128): the key of its submission queue, the 64 bytes, what its data
pointer gives, and the instant. -/
structure Submit where
  sq : Nat
  /-- SA of the CAPSULE that brought it; 0 on a HOST queue -/
  sa : Nat
  entry : Bytes
  data : Fetched
  now : Nat
  deriving DecidableEq, Repr

/-- An Ethernet frame on a host or loop port: bytes from the destination address to the last payload byte, without the
FCS, and whether the FCS is right (R55). -/
structure Frame where
  port : Nat
  bytes : Bytes
  fcsOk : Bool
  now : Nat
  deriving DecidableEq, Repr

/-- A completed PTP Sync exchange (R35, R36): the port, domain and logSyncInterval of its messages, whether every field
passed IEEE 1588-2019 and the exchange is one the module supports, and its offset sample. -/
structure PtpSync where
  port : Nat
  domain : Nat
  logSync : Int
  wellFormed : Bool
  /-- reference time less local time, in ps -/
  offset : Int
  now : Nat
  deriving DecidableEq, Repr

/-- What a host answers to a non-posted read (R455). -/
inductive HostAnswer where
  | data (bytes : Bytes)
  | unsuccessful
  deriving DecidableEq, Repr

/-- The neighbour requests of R59 and R498. -/
inductive Neighbour where
  | arp | neighbourSolicitation | icmpEcho | icmpv6Echo
  deriving DecidableEq, Repr

/-- What the media give for one stored record that a read needs (R290, R291). -/
inductive Media where
  /-- every drive block read with valid physical protection -/
  | good
  /-- unreadable at first; a trial with the rebuilt units of a member passed -/
  | rebuilt (member : Nat)
  /-- every trial failed -/
  | lost
  deriving DecidableEq, Repr

/-- Status of an NVMe completion: success, a Media and Data Integrity error (SCT 2h), or any other error (R410). -/
inductive NvmeStatus where
  | success | integrity | error
  deriving DecidableEq, Repr

/-- What qualification finds (R402): the lowest failing check, 0 for none, and the drive's identity. -/
structure DriveReport where
  failed : Nat
  /-- the drive holds no namespace -/
  empty : Bool
  speed : Nat
  width : Nat
  queues : Nat
  drive : Drive
  deriving DecidableEq, Repr

/-- A SMART / Health log (R415). -/
structure SmartLog where
  critWarning : Nat
  pctUsed : Nat
  availSpare : Nat
  tempK : Nat
  unitsWritten : Nat
  mediaErrors : Nat
  deriving DecidableEq, Repr

/-- A packet that has lost a cell (R343): an egress copy by queue key and place, a packet that has not landed by its place in landing
order, or a packet whose data lies in a window's slot: its SA, MSG_ID and PKT_INDEX, window, breath, offset and length. -/
inductive LostPacket where
  | egress (queue index : Nat)
  | landing (index : Nat)
  | slot (sa msgId pkt window breath offset length : Nat)
  deriving DecidableEq, Repr

/-- The commands: one constructor for every row of the opcode table. -/
inductive Instr where
  /-- A breath edge occurs and the module applies the nine ordered effects of edge n in the edge cycle (R43). -/
  | breathEdge
  /-- A write of BRG_CMD.RESEED inside a transaction requests a re-seed at the edge of that transaction (R41). -/
  | reseed (c : Submit)
  /-- A PTP Sync exchange is received, time-stamped, filtered and used to qualify or steer the grid (R35). -/
  | ptpSync (p : PtpSync)
  /-- No accepted Sync arrives for SYNC_TIMEOUT intervals or the announce timeout expires, and PTP is lost (R35). -/
  | ptpSyncTimeout
  /-- A SYNC_IN pulse passes the glitch filter and is range-checked against the expected interval (R35). -/
  | syncInPulse (now : Nat) (widthPs : Nat)
  /-- No in-range SYNC_IN pulse arrives for two pulse intervals and the source is lost (R35). -/
  | syncInTimeout
  /-- A PPS_IN pulse is accepted and checked against 1 s plus or minus 100 us (R35). -/
  | ppsPulse (now : Nat) (widthPs : Nat)
  /-- No PPS_IN pulse for 1.5 s loses the REF10M_IN with PPS_IN source (R35). -/
  | ppsTimeout
  /-- No REF10M_IN cycle for 10 us loses the source (R35). -/
  | ref10mLoss
  /-- REF10M_IN stays in range for 100 ms, after which PPS pulses may qualify the source (R35). -/
  | ref10mQualify (hz : Nat)
  /-- No heartbeat for 5 ms loses the PEER time source (R35). -/
  | peerTimeTimeout
  /-- A returning higher-priority source has stayed qualified for REVERT_HOLD and the grid changes over to it (R37). -/
  | revertHoldExpiry
  /-- Once per second the module reports rejected time-input pulses (R50). -/
  | timeInputReject (input : Nat)
  /-- A register read into a stopped clock domain waits 10 us and returns 0xC10C_57AD (R53). -/
  | crossingReadTimeout (addr : Nat)
  /-- A write that finds the 16 held entries full for 10 us is discarded and DROP is set (R53). -/
  | crossingWriteDrop (block : Nat)
  /-- When a stopped destination clock returns and its block leaves reset, held writes land in order (R53). -/
  | crossingWriteLand (block : Nat) (now : Nat)
  /-- A write of CTL_XING_FLUSH discards the held writes of the blocks named (R53). -/
  | xingFlush (mask : Nat)
  /-- A write to a register with no behaviour of its own takes effect or is rejected under R10 (R505). -/
  | registerWrite (now addr bytes value : Nat)
  /-- A DATA_WRITE packet passes the receive steps and lands in region or window memory as one unit (R92). -/
  | dataWriteRx (f : Frame)
  /-- A READ_REQ is admitted and its read is copied out and answered with READ_RESP messages (R93). -/
  | readReqRx (f : Frame)
  /-- A READ_RESP received as requester is matched against the module's outstanding requests (R72). -/
  | readRespRx (f : Frame)
  /-- A CAPSULE places all its submission entries at the BELL SQ tail, or is NACKed (R111). -/
  | capsuleRx (f : Frame)
  /-- A RESPONSE received as requester is matched by TARGET or dropped and counted (R62). -/
  | responseRx (f : Frame)
  /-- An ACK message's entries record which packets the peer admitted and stop their retransmission (R65). -/
  | ackRx (f : Frame)
  /-- A NACK message stops retransmission of the packets it names and fails their request (R67). -/
  | nackRx (f : Frame)
  /-- An EVENT packet reaching the module is dropped at step 7 and counted (R62). -/
  | eventRx (f : Frame)
  /-- An SA or reed context fetch from bell completes and waiting packets resume in arrival order (R76). -/
  | fetchComplete (step sa target now : Nat)
  /-- A packet that has waited 50 us in the fetch buffer is dropped and counted (R76). -/
  | fetchBufferTimeout (now : Nat)
  /-- ACK_DELAY passes since the oldest unacknowledged admitted packet and an ACK, with any NACK, is sent (R65). -/
  | ackDelayExpiry (sa : Nat)
  /-- A packet's retransmission timer expires and the packet is sent again with TRY raised (R68). -/
  | retxTimer (sa msgId pkt : Nat)
  /-- Every 1 ms held completion entries are offered again to a full PEER CQ under a new MSG_ID (R115). -/
  | responseReoffer (cq : Nat)
  /-- A replay filter entry leaves 64 ms after creation and the SA floor advances (R71). -/
  | replayEntryExpire (now : Nat)
  /-- In a second when entries left early the module posts the lowest departure age (R71). -/
  | replayHorizonShort
  /-- Once per second per SA the count of failed tag checks is reported (R61). -/
  | authFail (sa : Nat)
  /-- A handshake INIT is checked and answered with a REPLY that installs new SA keys (R80). -/
  | kexInit (f : Frame)
  /-- Once per second per port the count of rejected INITs is reported (R80). -/
  | kexReject (port : Nat)
  /-- A peer nonce remembered for 1 s is forgotten, so a repeat no longer draws the stored REPLY (R80). -/
  | kexNonceExpire (sa : Nat) (nonce : Bytes)
  /-- 64 ms after the first packet in a new key phase the old phase stops being accepted (R80). -/
  | keyPhaseOldExpire (sa : Nat)
  /-- A port holds alignment lock for 100 ms and is declared up (R83). -/
  | portUp (port : Nat)
  /-- A port has no lock for 2 ms and is declared down (R83). -/
  | portDown (port : Nat)
  /-- The optical monitors are sampled every 20 ms and RX_POWER is compared with RX_LOW (R83). -/
  | opticsSample (port : Nat) (rxPower txBias temp : Int)
  /-- No optical monitor sample for 100 ms posts PORT_OPTICS_FAULT (R475). -/
  | opticsSampleTimeout (port : Nat)
  /-- An optical engine fails and its 16 ports are fenced (R84). -/
  | portOpticsFault (engine fault : Nat)
  /-- A MAC fails and its own port is fenced (R84). -/
  | portMacFault (port : Nat)
  /-- Once per second per port the malformed, policer and fetch-buffer drops are reported (R85). -/
  | portDropSummary (port : Nat)
  /-- An ARP, neighbour solicitation or echo request for the port's address is answered (R59). -/
  | neighbourRequest (f : Frame) (kind : Neighbour)
  /-- Registers a buffer region at the transaction's edge and returns its module-chosen key (R88). -/
  | regionRegister (c : Submit)
  /-- Raises a region's generation at its edge and starts the drain of admitted work (R94). -/
  | regionRevoke (c : Submit)
  /-- The last admitted work on a revoked region ends, its memory is released and REGION_REVOKE completes (R94). -/
  | revokeDrainDone (index now : Nat)
  /-- Creates a DISARMED capture window and its region at the transaction's edge (R105). -/
  | windowCreate (c : Submit)
  /-- Arms a DISARMED window at its edge, setting FIRST_BREATH (R105). -/
  | windowArm (c : Submit)
  /-- Puts an ARMED window into DRAINING at its edge (R105). -/
  | windowDisarm (c : Submit)
  /-- Deletes a DISARMED or FENCED window and revokes its key (R105). -/
  | windowDelete (c : Submit)
  /-- Once per second the window's LATE and SLOT_BUSY counts are reported (R108). -/
  | windowRefuseSummary (window : Nat)
  /-- The partner lands a window packet copy in its mirror of the slot (R106). -/
  | plCopyRx (c : SlotCopy)
  /-- The partner's acknowledgement of a PL copy releases the camera ACK that waited on it (R333). -/
  | plCopyAck (window breath sa msgId pkt : Nat)
  /-- An SQ's poll interval expires and owned entries are fetched and admitted in ring order (R116). -/
  | sqPoll (sq now : Nat)
  /-- A completion for a module-issued PCIe read arrives, delivering SQ entries, CQ OWN bits or data (R455). -/
  | hostReadCompletion (tag now : Nat) (answer : HostAnswer)
  /-- A module-issued read has no completion after CPL_TIMEOUT_MS and is ended (R455). -/
  | cplTimeout (tag : Nat)
  /-- A timed-out read's tag leaves quarantine after 2 x CPL_TIMEOUT_MS (R455). -/
  | tagQuarantineEnd (tag : Nat)
  /-- Slots become free and a CQ's overflow chain drains into the ring oldest first (R123). -/
  | chainDrain (cq now : Nat)
  /-- A CQ's stall timer reaches its limit and the CQ and its SQs are fenced (R124). -/
  | stallLimit (cq now : Nat)
  /-- A write of CMD_MP0_CFG.ENABLE starts or stops client 0's mouthpiece rings (R121). -/
  | mp0Enable (now value : Nat)
  /-- Creates a CQ at the transaction's edge (R118). -/
  | cqCreate (c : Submit)
  /-- Creates an SQ bound to a CQ at the transaction's edge (R118). -/
  | sqCreate (c : Submit)
  /-- Changes an SQ's polling and arbitration settings at its edge (R149). -/
  | sqModify (c : Submit)
  /-- Stops fetching from an SQ at its edge and waits for its commands in flight (R119). -/
  | sqDelete (c : Submit)
  /-- The last command of a deleted SQ produces its completion and SQ_DELETE completes (R119). -/
  | sqDeleteDone (sq : Nat)
  /-- Deletes a CQ with no bound SQ or chain and discards its record (R119). -/
  | cqDelete (c : Submit)
  /-- Clears the fence of an SQ or CQ and resets its index to 0 (R119). -/
  | queueReset (c : Submit)
  /-- Reads, verifies and decrypts logical blocks and delivers them to the data pointer (R137). -/
  | read (c : Submit)
  /-- Fetches data, compresses, encrypts and appends it, completing at its durability point (R142). -/
  | write (c : Submit)
  /-- Removes the mapping of a block range, completing when the change is journalled (R141). -/
  | deallocate (c : Submit)
  /-- Catches a command of the same SQ by TAG or reports TOO_LATE or NO_SUCH_TAG (R153). -/
  | abort (c : Submit)
  /-- Opens a transaction for the client and records its begin generation (R355). -/
  | txnBegin (c : Submit)
  /-- Requests commit of the open transaction at the edge whose cut-off it meets (R358). -/
  | txnCommit (c : Submit)
  /-- Ends the open transaction, aborting every recorded command (R357). -/
  | txnRollback (c : Submit)
  /-- A transaction without an admitted TXN_COMMIT after 10 s rolls back (R357). -/
  | txnExpired (client now : Nat)
  /-- Copies part of a log page snapshot to the data pointer (R157). -/
  | getLog (c : Submit)
  /-- Admits a resynchronisation request whose page is snapshotted at the next edge (R362). -/
  | tune (c : Submit)
  /-- Creates an SA in ENROLLED from its descriptor at the edge (R159). -/
  | saCreate (c : Submit)
  /-- Frees an SA and zeroises its keys at the edge (R159). -/
  | saDelete (c : Submit)
  /-- Creates a reed context binding an SA to a queue, region or window (R159). -/
  | rctxCreate (c : Submit)
  /-- Deletes a reed context at the edge (R159). -/
  | rctxDelete (c : Submit)
  /-- Creates a namespace on a set at the edge (R263). -/
  | nsCreate (c : Submit)
  /-- Deletes a namespace at the edge and releases its map in the background (R264). -/
  | nsDelete (c : Submit)
  /-- The background release of a deleted namespace's map ends (R264). -/
  | nsReleased (nsid : Nat)
  /-- Creates a stripe set at the edge and writes its labels (R261). -/
  | setCreate (c : Submit)
  /-- Both label copies are written on every member and appends may proceed (R261). -/
  | setReady (set : Nat)
  /-- Deletes a set with no namespace, zeroising labels and releasing bays (R262). -/
  | setDelete (c : Submit)
  /-- Requests a new layout for a set, checked by the fit test at commit (R315). -/
  | setReshape (c : Submit)
  /-- Assigns or releases a bay as a set or pool spare (R305). -/
  | spareAssign (c : Submit)
  /-- Checks and installs a program image at the edge (R182). -/
  | programLoad (c : Submit)
  /-- Binds a program to a namespace opcode or a window at the edge (R183). -/
  | programBind (c : Submit)
  /-- Removes an unbound loaded program at the edge (R185). -/
  | programUnload (c : Submit)
  /-- Unwraps a KEK or DEK and makes the entry LIVE at the edge (R238). -/
  | keyInstall (c : Submit)
  /-- Moves a key-table entry to DESTROYING and fences the namespaces that name it (R239). -/
  | keyDestroy (c : Submit)
  /-- Once earlier activations using the key end it is zeroised everywhere and the entry becomes EMPTY (R239). -/
  | keyDestroyed (key : Nat)
  /-- Stages a manifest or a chunk of a firmware part and verifies it when complete (R375). -/
  | fwStage (c : Submit)
  /-- Activates the staged firmware at the edge if no refusal condition holds (R376). -/
  | fwActivate (c : Submit)
  /-- The loader finishes writing and reading back the slot and the restarting parts follow (R377). -/
  | fwSlotWriteDone (ok : Bool)
  /-- The new Drone image runs, versions are updated and mouthpiece fetching resumes (R377). -/
  | fwActivated (now : Nat)
  /-- Every 10 s an incomplete slot write is retried (R378). -/
  | fwSlotRetry (ok : Bool)
  /-- Sets shaper and queue parameters of a subscriber, service or port at the edge (R337). -/
  | schedSet (c : Submit)
  /-- Returns a register value in RESULT (R158). -/
  | regRead (c : Submit)
  /-- Writes a register as a direct write, or records it in an open transaction (R158). -/
  | regWrite (c : Submit)
  /-- A free chanter thread takes a ready queued command by urgent then weighted arbitration and starts its activation (R150). -/
  | commandDispatch (thread now : Nat)
  /-- A queued window-commit activation starts on a free thread in breath-deadline order (R162). -/
  | windowCommitStart (thread now : Nat)
  /-- A fully covered cunit of a DEADLINE = 0 window starts an early-cunit activation (R163). -/
  | earlyCunitStart (thread window cunit now : Nat)
  /-- Writes ga + gb to gd (R196). -/
  | add (thread d a b : Nat)
  /-- Writes ga - gb to gd (R196). -/
  | sub (thread d a b : Nat)
  /-- Writes ga AND gb to gd (R196). -/
  | and (thread d a b : Nat)
  /-- Writes ga OR gb to gd (R196). -/
  | or (thread d a b : Nat)
  /-- Writes ga XOR gb to gd (R196). -/
  | xor (thread d a b : Nat)
  /-- Writes NOT ga to gd (R196). -/
  | not (thread d a : Nat)
  /-- Shifts ga left by gb[5:0] (R196). -/
  | sll (thread d a b : Nat)
  /-- Shifts ga right logically by gb[5:0] (R196). -/
  | srl (thread d a b : Nat)
  /-- Shifts ga right arithmetically by gb[5:0] (R196). -/
  | sra (thread d a b : Nat)
  /-- Writes 1 if ga is less than gb signed (R196). -/
  | slt (thread d a b : Nat)
  /-- Writes 1 if ga is less than gb unsigned (R196). -/
  | sltu (thread d a b : Nat)
  /-- Writes the low 64 bits of ga x gb (R196). -/
  | mul (thread d a b : Nat)
  /-- Writes the high 64 bits of the unsigned product (R196). -/
  | mulhu (thread d a b : Nat)
  /-- Writes the unsigned quotient, all ones on division by 0 (R196). -/
  | divu (thread d a b : Nat)
  /-- Writes the unsigned remainder, ga on division by 0 (R196). -/
  | remu (thread d a b : Nat)
  /-- Writes the number of 1 bits in ga (R196). -/
  | pcnt (thread d a : Nat)
  /-- Writes the trailing zero count of ga (R196). -/
  | ctz (thread d a : Nat)
  /-- Writes the leading zero count of ga (R196). -/
  | clz (thread d a : Nat)
  /-- Adds a sign-extended immediate (R192). -/
  | addi (thread d a imm : Nat)
  /-- ANDs a zero-extended immediate (R192). -/
  | andi (thread d a imm : Nat)
  /-- ORs a zero-extended immediate (R192). -/
  | ori (thread d a imm : Nat)
  /-- XORs a zero-extended immediate (R192). -/
  | xori (thread d a imm : Nat)
  /-- Compares signed with a sign-extended immediate (R192). -/
  | slti (thread d a imm : Nat)
  /-- Compares unsigned with a sign-extended immediate (R192). -/
  | sltiu (thread d a imm : Nat)
  /-- Shifts left by an immediate amount (R192). -/
  | slli (thread d a imm : Nat)
  /-- Shifts right logically by an immediate amount (R192). -/
  | srli (thread d a imm : Nat)
  /-- Shifts right arithmetically by an immediate amount (R192). -/
  | srai (thread d a imm : Nat)
  /-- Replaces one 16-bit quarter of gd with the immediate (R197). -/
  | liq (thread d q imm : Nat)
  /-- Loads one byte through a capability address, zero-extended (R193). -/
  | ldB (thread d b imm : Nat)
  /-- Loads two bytes through a capability address, zero-extended (R193). -/
  | ldH (thread d b imm : Nat)
  /-- Loads four bytes through a capability address, zero-extended (R193). -/
  | ldW (thread d b imm : Nat)
  /-- Loads eight bytes through a capability address (R193). -/
  | ldD (thread d b imm : Nat)
  /-- Stores one byte through a capability address (R193). -/
  | stB (thread v b imm : Nat)
  /-- Stores two bytes through a capability address (R193). -/
  | stH (thread v b imm : Nat)
  /-- Stores four bytes through a capability address (R193). -/
  | stW (thread v b imm : Nat)
  /-- Stores eight bytes through a capability address (R193). -/
  | stD (thread v b imm : Nat)
  /-- Branches when ga equals gb (R198). -/
  | beq (thread a b off : Nat)
  /-- Branches when ga differs from gb (R198). -/
  | bne (thread a b off : Nat)
  /-- Branches when ga is less than gb signed (R198). -/
  | blt (thread a b off : Nat)
  /-- Branches when ga is at least gb signed (R198). -/
  | bge (thread a b off : Nat)
  /-- Branches when ga is less than gb unsigned (R198). -/
  | bltu (thread a b off : Nat)
  /-- Branches when ga is at least gb unsigned (R198). -/
  | bgeu (thread a b off : Nat)
  /-- Jumps by a signed word offset (R198). -/
  | j (thread off : Nat)
  /-- Writes the return index and jumps (R198). -/
  | jal (thread d off : Nat)
  /-- Jumps to the word index in a register (R198). -/
  | jr (thread src : Nat)
  /-- Forms a capability address of window N (R199). -/
  | mkca (thread d n src : Nat)
  /-- Narrows a capability window's range and rights (R200). -/
  | capn (thread cd cs a b mask : Nat)
  /-- Copies a special register into gd (R201). -/
  | rds (thread d src : Nat)
  /-- Issues compression of a run of blocks and returns a ticket (R202). -/
  | zc (thread d src : Nat)
  /-- Issues decoding of a cunit stream and returns a ticket (R203). -/
  | zd (thread d src : Nat)
  /-- Issues XTS encryption or decryption and returns a ticket (R204). -/
  | xts (thread d src : Nat) (decrypt : Bool)
  /-- Issues the append of a sealed-ready encrypted cunit to the namespace (R206). -/
  | app (thread d src : Nat)
  /-- Issues a verified read of logical blocks (R207). -/
  | rdl (thread d src : Nat)
  /-- Issues the transfer of read data to the READ destination (R208). -/
  | xout (thread d src : Nat)
  /-- Issues removal of the mapping of a block range (R209). -/
  | unmap (thread d src : Nat)
  /-- Stalls until a ticket completes and writes its result (R210). -/
  | wait (thread d t : Nat)
  /-- Library-only query of an LBA range's physical placement (R211). -/
  | mapq (thread d src : Nat)
  /-- Library-only read of a stored cunit named by a map record (R211). -/
  | rdc (thread d src : Nat)
  /-- Drains tickets, seals appends and unmaps in one journal record and posts the completion (R212). -/
  | post (thread src now : Nat)
  /-- Ends the activation once tickets drain, sealing in kind 2 (R213). -/
  | halt (thread now : Nat)
  /-- Posts a PROGRAM_NOTE event, limited to one per activation (R214). -/
  | note (thread src : Nat)
  /-- A compression ticket completes with stream length or check status (R202). -/
  | zcComplete (thread ticket now : Nat)
  /-- A decode ticket completes with data or MEDIA_UNREADABLE (R203). -/
  | zdComplete (thread ticket now : Nat)
  /-- An XTS ticket completes and may mark its output sealed-ready (R205). -/
  | xtsComplete (thread ticket now : Nat)
  /-- An append is in the persistent region and the partner's mirror and its ticket completes (R174). -/
  | appComplete (thread ticket now : Nat)
  /-- A logical read ticket completes with blocks written and the lowest failure (R207). -/
  | rdlComplete (thread ticket : Nat) (media : List Media) (now : Nat)
  /-- A transfer ticket completes when its last write is issued or acknowledged (R208). -/
  | xoutComplete (thread ticket failure now : Nat)
  /-- An unmap ticket completes, pending its seal (R209). -/
  | unmapComplete (thread ticket now : Nat)
  /-- A chanter's tag countdown reaches 0, tags the issuing instruction and draws the next interval (R469). -/
  | instructionTag (thread pc word delay stall cause fault now : Nat) (ticket : Option Nat)
  /-- A lane side's output buffer stays full for 1 us and it stops, saving a resume record (R231). -/
  | cpeLaneStop (lane consumed produced : Nat)
  /-- Bell credit returns and a stopped operation resumes on the first free lane side (R231). -/
  | cpeLaneResume (lane : Nat)
  /-- Once per second undecodable streams are reported (R234). -/
  | cpeUndecodableSummary
  /-- A cipher lane that cannot drain saves a wrapped context record and stops (R247). -/
  | cipLaneStop (lane thread ticket : Nat)
  /-- A stopped cipher operation is restored from its context record and resumes (R248). -/
  | cipLaneResume (lane thread ticket : Nat)
  /-- An uncorrectable word is detected and the action of its store code is taken (R485). -/
  | memoryUe (store unit addr : Nat) (lost : List LostPacket) (now : Nat)
  /-- Once per second cell losses are reported (R343). -/
  | swcCellLost
  /-- The background scrub reads SRAM hourly and bell daily, correcting single-bit errors (R485). -/
  | eccScrub (store corrected : Nat)
  /-- Once per second per store corrected words are reported (R481). -/
  | memoryCeSummary (store : Nat)
  /-- Both entropy sources fail their health tests and the DRBG stops (R250). -/
  | rngFault (sources : List Nat) (test now : Nat)
  /-- A source passes 1,024 consecutive windows and the DRBG reseeds (R250). -/
  | rngRecovered (source now : Nat)
  /-- The DRBG reseeds every 1 s or 2^20 requests (R249). -/
  | drbgReseed
  /-- Each lane's mask generator reseeds every 1 ms (R249). -/
  | maskReseed (lane : Nat)
  /-- A write of CIP_TEST.ENABLE = 1 enters test mode on K63 and X31 (R252). -/
  | cipTestEntered (client : Nat)
  /-- Writing ENABLE = 0 or any KEY_INSTALL ends test mode and zeroises the test key (R252). -/
  | cipTestExit
  /-- GO with OP 0 encrypts one AES block on the test lane (R471). -/
  | testAesBlockEncrypt (client : Nat)
  /-- GO with OP 1 runs GCM encryption on the test lane (R471). -/
  | testGcmEncrypt (client : Nat)
  /-- GO with OP 2 runs XTS encryption on the test lane (R471). -/
  | testXtsEncrypt (client : Nat)
  /-- GO with OP 3 runs XTS decryption on the test lane (R471). -/
  | testXtsDecrypt (client : Nat)
  /-- CLOSE_MS passes since a stripe's first record and the stripe is closed with PAD (R267). -/
  | stripeCloseMs (set : Nat) (host : Bool) (now : Nat)
  /-- A member Write completes successfully and counts as durable when protection rules allow (R407). -/
  | nvmeWriteCompletion (bay cid : Nat) (status : NvmeStatus) (now : Nat)
  /-- A HOST stripe whose conditions hold is map-committed, applying its seals granule by granule (R277). -/
  | mapCommit (set stripe now : Nat)
  /-- A changed map page is checkpointed before MAX_AGE passes (R284). -/
  | pageCkpt (nsid page now : Nat)
  /-- Collection cleans the emptiest FULL zone, relocating live records through the BACKGROUND stream (R293). -/
  | collection (set now : Nat)
  /-- A PENDING_FREE zone's checkpoints are durable and it becomes FREE (R295). -/
  | zoneFree (set zone : Nat)
  /-- The module recovers an owned set from its journal, the mirror or the ledger (R288). -/
  | recovery (set source now : Nat)
  /-- Recovery of a set ends and it resumes serving (R289). -/
  | recoveryDone (set now : Nat)
  /-- A rebuild position passes the last stripe and the member becomes ACTIVE (R308). -/
  | rebuildDone (set member now : Nat)
  /-- Once per second per set stripes lost beyond redundancy are reported (R310). -/
  | stripeLost (set : Nat)
  /-- The loss walk passes every page and the PHYSICAL entry becomes LOGICAL entries (R311). -/
  | lossWalkDone (set now : Nat)
  /-- The scrub finishes a pass over every written stripe of a set (R323). -/
  | scrubPassDone (set : Nat)
  /-- A packet's cells are written to their final place in bell when credit allows (R327). -/
  | landing (count : Nat)
  /-- A queue's spilled cells return to windway once its windway cells fall below half its limit (R330). -/
  | spillReturn (queue : Nat)
  /-- Windway and staging pass their resume levels and host ingress is accepted again (R331). -/
  | swcInputResumed (now : Nat)
  /-- An egress point is free and the scheduler sends the head packet of the selected queue (R339). -/
  | egressSend (point now : Nat)
  /-- The sampling interval expires and queue sample records are written (R342). -/
  | schSample (now : Nat)
  /-- Once per second dropped sample records are reported (R344). -/
  | schSampleDropSummary
  /-- A Drone core dissents and is fenced, leaving a voting pair (R346). -/
  | droneCoreFenced (core cause now : Nat)
  /-- At the first edge after a fence the pair stalls and the fenced core is re-copied (R347). -/
  | droneRecopy (now : Nat)
  /-- The re-copy completes and the three cores resume voting 2 of 3 (R347). -/
  | droneRecopied (now : Nat)
  /-- A re-copy does not complete in 200 us or errs and the Drone runs on as a pair (R349). -/
  | droneDegraded (now : Nat)
  /-- The pair disagrees or a second core dissents and the Drone issues no further output (R350). -/
  | droneHalted (cores : Nat)
  /-- A steward misses three reports or traps and is restarted from its image (R353). -/
  | stewardRestarted (steward cause : Nat) (done : Bool)
  /-- A steward access outside its limits is refused and reported (R352). -/
  | stewardViolation (steward addr kind : Nat)
  /-- A write of 0xC7A5 to CTL_CONTROL_RESET starts a control reset (R360). -/
  | controlReset (client now value : Nat)
  /-- The control path stays frozen for AUTO_RESET_S seconds and a control reset starts (R360). -/
  | autoReset (now : Nat)
  /-- Mouthpiece fetching resumes after the restart of a control reset (R361). -/
  | controlResetDone (now : Nat)
  /-- A write of CTL_OWNER.LOCK sets or clears the owner lock and extends M9 (R372). -/
  | ownerLock (client now value : Nat)
  /-- GO with OP 0 produces a signed quote into the DEST region (R369). -/
  | attestQuote (writer bank now : Nat)
  /-- GO with OP 1 writes the certificate chain into the DEST region (R371). -/
  | attestCertificates (writer bank now : Nat)
  /-- GO with OP 2 writes the measurement log into the DEST region (R371). -/
  | attestLog (writer bank now : Nat)
  /-- An attestation request ends DONE or REFUSED (R371). -/
  | attestDone (bank : Nat)
  /-- A new AK certificate is signed and stored after start-up (R366). -/
  | akCertified
  /-- At start-up the loader verifies the running slot and starts or replaces it (R379). -/
  | loaderSlotCheck (good : Bool) (manifest : Bytes)
  /-- Every 1 s the loader retries fetching a firmware copy over PL (R379). -/
  | loaderPlRetry
  /-- A firmware copy from the partner is verified and written to the slot (R379). -/
  | fwRecovered (source : Nat) (manifest : Bytes)
  /-- The peer link comes up and pair-key agreement begins (R382). -/
  | plLinkUp (now : Nat)
  /-- The peer link goes down and the partner counts as ABSENT (R381). -/
  | plLinkDown (now : Nat)
  /-- Certificates and signed ciphertexts from the partner are checked and the pair key is taken (R382). -/
  | pairKeyExchange (failedStep : Nat) (key : Bytes) (version peerMin : Nat) (now : Nat)
  /-- Every 1 s a failed pair-key agreement is retried (R382). -/
  | pairKeyRetry (now : Nat)
  /-- Every 24 hours the pair key is agreed again without pause (R382). -/
  | pairKeyRekey (key : Bytes)
  /-- Every 1 ms the module sends a heartbeat on PL service 0 (R384). -/
  | heartbeatSend (now : Nat)
  /-- A partner heartbeat is verified, accepted and used for time and readiness (R384). -/
  | heartbeatRx (h : Heartbeat) (verified : Bool) (now : Nat)
  /-- 3 ms after the last heartbeat sent the watchdog releases the alive line (R385). -/
  | aliveRelease (now : Nat)
  /-- The partner's alive or owner line changes level after debounce (R385). -/
  | partnerLineChange (alive owner : Bool)
  /-- No heartbeat for 5 ms is judged as partner failure or peer link loss (R387). -/
  | partnerFailed (now : Nat)
  /-- Take-over recovery ends and traffic for the sets is admitted (R388). -/
  | takeoverDone (now : Nat)
  /-- The partner receives mirrored tail bytes or journal records into its mirror share (R268). -/
  | mirrorAppendRx (m : Mirrored)
  /-- The owner receives a command forwarded by its partner over PL and admits it (R155). -/
  | forwardedCommand (origin : Nat) (entry payload : Bytes) (now : Nat)
  /-- A forwarded command's completion returns over PL and is posted (R155). -/
  | forwardedCompletion (seq admitSeq status result : Nat) (list : List (Nat × Nat)) (data checks : Bytes) (now : Nat)
  /-- The owner copies installed state, map and journal to a returning partner (R391). -/
  | resync (now : Nat)
  /-- A resynchronisation not done within 60 s starts again (R391). -/
  | resyncRetry (now : Nat)
  /-- Resynchronisation completes and the partner becomes STANDBY_READY (R391). -/
  | partnerStandbyReady (now : Nat)
  /-- A write of CTL_PEER_CMD.HANDBACK requests return of sets to the partner (R392). -/
  | handback (client now value : Nat)
  /-- The new owner receives HANDOVER with the last JSEQ and recovers the set (R394). -/
  | handover (set jseq now : Nat)
  /-- The new owner finishes recovery of a handed-back set (R394). -/
  | handbackDone (set now : Nat)
  /-- A loop packet not addressed to the module is forwarded by its route without decryption (R396). -/
  | loopForward (f : Frame) (shelf : Nat)
  /-- A powered bay's drive is checked in order and becomes QUALIFIED or REJECTED (R402). -/
  | driveQualify (bay : Nat) (report : DriveReport) (now : Nat)
  /-- Every 1 s the module not preparing reads Identify again for up to 30 s (R403). -/
  | identifyRetry (bay : Nat) (conforms : Bool) (now : Nat)
  /-- Setting AUTO_PREPARE prepares every bay held REJECTED with reason 11 (R403). -/
  | autoPrepare
  /-- An admin command completes, advancing qualification, health or an async event (R405). -/
  | nvmeAdminCompletion (bay cid : Nat) (health : Option SmartLog) (now : Nat)
  /-- A member Read completes and its protection is verified, or its blocks are unreadable (R411). -/
  | nvmeReadCompletion (bay cid : Nat) (ok : Bool) (now : Nat)
  /-- A Read reaches READ_MS, is rebuilt, and its CID is quarantined (R409). -/
  | readTimeout (bay cid now : Nat)
  /-- A Write or Flush times out or errs and the member fails (R410). -/
  | writeTimeout (bay cid now : Nat)
  /-- An admin command reaches ADMIN_MS (R408). -/
  | adminTimeout (bay cid now : Nat)
  /-- A quarantined CID and its buffers are released after 2 x READ_MS (R409). -/
  | cidQuarantineEnd (bay cid : Nat)
  /-- Once per second per bay read timeouts are reported (R409). -/
  | driveTimeoutSummary (bay : Nat)
  /-- A drive's inbound request is served inside its issued buffers or refused (R401). -/
  | driveDmaRequest (bay addr len : Nat) (data : Option Bytes)
  /-- Once per second per bay refused inbound requests are reported (R401). -/
  | driveBadDma (bay : Nat)
  /-- A controller sets CSTS.CFS and is handled as a Write timeout (R411). -/
  | controllerFatal (bay now : Nat)
  /-- A qualified bay's link drops and it enters LINK_LOST (R413). -/
  | driveLinkDown (bay now : Nat)
  /-- The link returns within LINK_DOWN_MS and waiting writes are issued (R413). -/
  | driveLinkUp (bay now : Nat)
  /-- LINK_DOWN_MS passes and the member becomes MISSING (R413). -/
  | linkDownExpiry (bay now : Nat)
  /-- A powered bay's link does not train within 1 s and the bay is rejected (R402). -/
  | linkTrainTimeout (bay : Nat)
  /-- CSTS.RDY is not set within its limit and the bay is rejected (R402). -/
  | cstsReadyTimeout (bay : Nat)
  /-- Every HEALTH_S seconds the stewards read each drive's SMART log (R415). -/
  | healthPoll (bay : Nat)
  /-- Both seat pins assert and the inlet may enter DELAY (R419). -/
  | moduleSeated (now : Nat)
  /-- The seat is removed for 20 ms with the inlet powered and the save starts (R421). -/
  | moduleExtraction (now : Nat)
  /-- A bay's presence asserts and its state machine starts afresh (R420). -/
  | bayInserted (bay : Nat)
  /-- A bay's presence is deasserted for 20 ms and its commands end (R414). -/
  | bayRemoved (bay now : Nat)
  /-- The inlet enters or leaves the voltage window after its filter (R423). -/
  | inletWindow (inside : Bool) (now : Nat)
  /-- The 100 ms insertion delay passes and the inlet ramp starts (R423). -/
  | inletDelayExpiry
  /-- The inlet output reaches 90 % and the converters start (R423). -/
  | inletOn (mv rampUs now : Nat)
  /-- A fast trip, breaker, SOA or overvoltage turns the inlet gate off and latches (R422). -/
  | inletFault (cause now : Nat)
  /-- The inlet output has not reached 90 % after 100 ms (R424). -/
  | inletRampTimeout
  /-- The retry interval passes and the inlet ramps again (R430). -/
  | inletRetry
  /-- A FAULT_CLEAR write clears the inlet latch (R430). -/
  | inletFaultClear (client : Nat)
  /-- A bay's 500 ms insertion delay passes and its 12 V ramp starts (R426). -/
  | bayDelayExpiry (bay : Nat) (fed : Bool)
  /-- A bay's 20 ms delay passes and the auxiliary channel switches on (R426). -/
  | auxDelayExpiry (bay : Nat)
  /-- A bay 12 V channel reaches power-good and enters ON (R426). -/
  | bayPowered (bay rampUs : Nat)
  /-- A trip or power-good loss turns the bay's channels off and latches (R427). -/
  | bayFault (bay cause peak now : Nat)
  /-- A bay channel ramp reaches its timeout without power-good (R425). -/
  | bayRampTimeout (bay now : Nat)
  /-- The bay retry interval passes and the channel ramps again (R430). -/
  | bayRetry (bay : Nat)
  /-- A recorded write of PWR_BAY_CTL.ENABLE turns a bay channel on or off (R428). -/
  | bayEnable (client bay value now : Nat)
  /-- A recorded FAULT_CLEAR write clears a bay latch (R430). -/
  | bayFaultClear (client bay : Nat)
  /-- Filtered inlet current exceeds 29 A and charging and new ramps are held (R431). -/
  | powerBudget (ma : Nat)
  /-- Current stays below 27 A for 1 s and the holds are released (R431). -/
  | powerBudgetRelease
  /-- A power sensor gives no valid sample and becomes STALE (R432). -/
  | sensorFault (sensor : Nat)
  /-- The inlet falls below 40 V and the hold-up bank feeds the module (R435). -/
  | powerFail (mv now : Nat)
  /-- The inlet returns to the window within RIDE_MS (R435). -/
  | powerRestored (now : Nat)
  /-- RIDE_MS ends and the persistent region starts saving to a dump slot (R436). -/
  | saveStart (now : Nat)
  /-- The dump is written and its header marked COMPLETE (R436). -/
  | saveComplete (ms joules : Nat)
  /-- The bank reaches 20 V before the header is COMPLETE and the dump stays INCOMPLETE (R437). -/
  | holdupExhausted (ms joules : Nat)
  /-- The daily test measures bank capacitance and re-judges arming (R434). -/
  | holdupTest (deltaMv mv : Nat)
  /-- Usable energy reaches 300 J and the bank is armed (R434). -/
  | holdupCharged (mv : Nat)
  /-- A fan stays below FAIL_RPM for 3 s and the others run at 100 % (R439). -/
  | fanFault (fan rpm : Nat)
  /-- A failed fan holds FAIL_RPM for 10 s and the set duty returns (R439). -/
  | fanRestored (fan rpm : Nat)
  /-- A temperature sensor has no accepted sample for 1 s and the fans go to 100 % (R477). -/
  | temperatureStale (sensor : Nat)
  /-- A die stays at 110 C for 1 s and the module hands over and saves (R502). -/
  | thermalShutdown (now : Nat)
  /-- Every die reads below 90 C and the module starts again (R502). -/
  | thermalRestart
  /-- A BAR2 TLP is translated through its window into a buffer region, or refused (R454). -/
  | bar2Tlp (r : Bar2Request)
  /-- A write of PEP_WIN_COMMIT validates and copies shadow windows to active (R452). -/
  | pepWinCommit (client mask : Nat)
  /-- A write of PEP_WIN_HOLD holds or releases TLPs of windows (R453). -/
  | pepWinHold (client mask : Nat)
  /-- A hold lasting HOLD_LIMIT_US ends by itself and releases its TLPs (R453). -/
  | pepWinHoldExpired (window : Nat)
  /-- The least interval of a vector ends and its merged message is sent (R450). -/
  | irqGapExpiry (vector : Nat)
  /-- A vector or the function is unmasked and a pending message is sent (R450). -/
  | msixUnmask (vector : Option Nat)
  /-- BME clears or the function enters D3hot and the module issues no request (R456). -/
  | busMasterDisable (d3 : Bool)
  /-- DL_Down, hot reset or FLR fences HOST queues and clears the endpoint (R457). -/
  | endpointReset (cause now : Nat)
  /-- The management endpoint link trains (R459). -/
  | endpointLinkUp (speed width : Nat)
  /-- Once per second bad accesses, window misses and timeouts are reported (R459). -/
  | pepAccessSummary
  /-- Writing CNT_CTL.FREEZE = 1 freezes every counter (R465). -/
  | cntFreeze (client : Nat)
  /-- Writing CNT_CTL.FREEZE = 0 restarts every counter (R465). -/
  | cntResume (client : Nat)
  /-- Writing FREEZE_EDGE arms a freeze at the next edge (R465). -/
  | freezeEdge (client now : Nat)
  /-- Writing RESUME_EDGE arms a resume at the next edge (R465). -/
  | resumeEdge (client now : Nat)
  /-- Writing CLEAR_ALL sets every counter value and overflow bit to 0 (R460). -/
  | clearAll (client : Nat)
  /-- A direct write of CNT_VAL replaces a counter value at once (R464). -/
  | cntValWrite (client counter value : Nat)
  /-- A counter wraps past 2^48 - 1 and sets its overflow bit (R468). -/
  | cntOverflow (counter amount : Nat)
  /-- Once per second dropped snapshot and tag records are reported (R472). -/
  | cntRecordDropSummary
  /-- Posted events are sent to clients 1-3 as EVENT messages or written into client 0's ring (R483). -/
  | eventDelivery (client now : Nat)
  /-- Every 1 ms given-up EVENT messages are offered again (R483). -/
  | eventReoffer (client now : Nat)
  /-- Setting CTL_EVQ0_CFG.ENABLE starts client 0's event ring at index 0 (R483). -/
  | evq0Enable (client : Nat)
  /-- A management Ethernet frame is filtered and any ARP, neighbour or echo request answered (R499). -/
  | mgmtFrameRx (frame : Bytes) (fcsOk : Bool) (now : Nat)
  /-- Posted event records are sent in UDP datagrams to the collector (R498). -/
  | eventMirror (now : Nat)
  /-- Link pulses for 1 s bring the management link up (R499). -/
  | mgmtLinkUp
  /-- 750 ms without link pulses takes the management link down (R499). -/
  | mgmtLinkDown
  /-- Standby power appears and start-up begins in phase INLET (R486). -/
  | standbyPowerUp
  /-- The slot pin holds a level for 10 ms after inlet ON and the slot is taken (R476). -/
  | slotPinRead (level : Nat)
  /-- The slot pin does not settle within 1 s and the Drone does not start (R476). -/
  | slotPinTimeout
  /-- The slot pin changes while the module runs and the change is ignored (R476). -/
  | slotPinChange (level : Nat)
  /-- The HBM stacks finish training, or a stack fails (R486). -/
  | bellTrainingDone (failed : List Nat)
  /-- The dump and installed state are restored and DISCOVERY begins (R488). -/
  | restoreDone
  /-- The partner's start-up claim arrives and ownership of each set is settled (R490). -/
  | claim (slot owned dumpBreath breath now : Nat)
  /-- No claim arrives within PEER_WAIT_S and ownership follows the partner's alive line (R491). -/
  | peerWaitTimeout (labels : List (Nat × Nat)) (now : Nat)
  /-- As boundary-clock master on a loop port, the module receives a Delay_Req from a downstream slave and answers it (R36). -/
  | ptpDelayReq (port domain : Nat) (source : Bytes) (seq rx : Nat)
  /-- With LOOP_MASTER set, the module sends periodic Sync and Announce messages on every loop port other than its slave port (R36). -/
  | ptpMasterSync (now : Nat)
  /-- A mapq ticket completes, with the physical placement written into scratch (R211). -/
  | mapqComplete (thread ticket now : Nat)
  /-- An rdc ticket completes, with the stored cunit read (R211). -/
  | rdcComplete (thread ticket now : Nat)
  /-- An NVMe Flush issued before a label write completes, which lets the label write count as complete (R405). -/
  | nvmeFlushCompletion (bay cid : Nat) (status : NvmeStatus) (now : Nat)
  /-- The hold-up bank reaches 49.5 V, the charger stops, and FULL is set (R433). -/
  | holdupFullCharge (mv : Nat)
  /-- The bank falls below 48.5 V and the charger runs again (R433). -/
  | holdupRecharge (mv : Nat)
  /-- Every 20 ms the die and inlet-air temperatures are sampled and filtered, and the AUTO fan duty is set from them (R477). -/
  | temperatureSample (sensor : Nat) (celsius : Int)
  /-- BME is set again with the function in D0, and polls of HOST SQs and posting to HOST CQs resume (R456). -/
  | busMasterEnable
  /-- Host software advances CTL_EVQ0_HEAD, which frees room in client 0's event ring so that held records are written (R483). -/
  | ctlEvq0HeadWrite (client value : Nat)
  /-- The partner receives over PL a copied installed change or key-table change, or recovery-copy data, and applies and acknowledges it (R393). -/
  | standbyCopyRx (x : Installed)
  /-- The partner confirms that it holds the whole recovery copy, PARTNER_COPY is set, and STAGE_STATE can become READY (R375). -/
  | recoveryCopyDone
  /-- The partner receives a recovering loader's request over PL and sends it the recovery copy, or its own running image (R379). -/
  | fwCopyRequest
  deriving DecidableEq, Repr

end Sys2Proof
end

