-- ==== Sys2Proof/Config.lean ====
section
/-! DEFINITION. What an implementation fixes and the values the spec leaves open: every constant here is opaque, so no
proof can see a value of it. -/

namespace Sys2Proof.Config

/-- Serial number fused into the module (CTL_SERIAL). [log 9: DESIGN CHOICE] -/
opaque serial : Nat
/-- IPv6 address of a port. [log 9: DESIGN CHOICE] -/
opaque portIp : Nat → BitVec 128
/-- IPv4 address of a port. [log 9: DESIGN CHOICE] -/
opaque portIp4 : Nat → BitVec 32
/-- MAC address of a port; port 1000 is the management port. [log 9: DESIGN CHOICE] -/
opaque portEui : Nat → BitVec 48
/-- IPv6 address of a port as a number. -/
def portAddress (port : Nat) : Nat := (portIp port).toNat
/-- IPv4 address of a port as a number. -/
def portAddress4 (port : Nat) : Nat := (portIp4 port).toNat
/-- MAC address of a port as a number. -/
def portMac (port : Nat) : Nat := (portEui port).toNat
/-- A fresh random value: byte strings the DRBG, the entropy sources and free choices give, by draw number and length. [log 8: DESIGN CHOICE] -/
opaque random : Nat → Nat → Bytes
/-- Whether an SLH-DSA signature over a message verifies under the firmware signing key (R373). [log 10: DESIGN CHOICE] -/
opaque manifestSigned : Bytes → Bytes → Bool
/-- The SLH-DSA signature the attestation key gives for a message (R369). [log 10: DESIGN CHOICE] -/
opaque attestationSignature : Bytes → Bytes
/-- The certificate chain in the form of R371. [log 10: DESIGN CHOICE] -/
opaque certificateChain : Bytes
/-- ML-KEM-1024 encapsulation to a key from 32 random bytes: ciphertext and shared secret (R79). [log 10: DESIGN CHOICE] -/
opaque encapsulate : Bytes → Bytes → Bytes × Bytes
/-- Digest of a boot part by register (R367). [log 10: DESIGN CHOICE] -/
opaque bootDigest : Nat → Bytes
/-- ML-KEM-1024 decapsulation under the key-exchange key: shared secret of a ciphertext (R79). [log 10: DESIGN CHOICE] -/
opaque decapsulate : Bytes → Option Bytes
/-- The encoding a compress side chooses for a cunit body in DICT (R226). [log 11: DESIGN CHOICE] -/
opaque dictEncode : Bytes → Bytes
/-- Code words of a library program (R179), by digest of the library part and program identifier. [log 11: DESIGN CHOICE] -/
opaque libraryCode : Bytes → Nat → List Word32
/-- Scratch bytes of a library program. [log 11: DESIGN CHOICE] -/
opaque libraryScratch : Bytes → Nat → Nat
/-- VERSION of a library program. [log 11: DESIGN CHOICE] -/
opaque libraryVersion : Bytes → Nat → Nat
/-- Placement record that `mapq` writes (R211), by first LBA and blocks. [log 12: DESIGN CHOICE] -/
opaque mapRecord : Nat → Nat → Bytes
/-- Lane occupancy of a test AES block operation: R243 and R246 give those of the others (R471). [log 14: DESIGN CHOICE] -/
opaque aesCycles : Nat
/-- Key 2 of a test XTS operation: the one test key of 256 bits is key 1 (R252, R471). [log 14: DESIGN CHOICE] -/
opaque testKey2 : Bytes → Bytes
/-- Millijoules measured by an instant: bay 0 to 31, 32 the inlet (R442). [log 13: DESIGN CHOICE] -/
opaque energy : Nat → Nat → Nat
/-- Seed of the tag generators drawn at a start-up, by its number (R469). [log 13: DESIGN CHOICE] -/
opaque tagSeed : Nat → Nat
/-- Hash of an SA index and a TARGET that chooses the UDP source port (R55). [log 9: DESIGN CHOICE] -/
opaque udpSourceHash : Nat → Nat → Nat
/-- The module's endpoint identifier (R79). [log 9: DESIGN CHOICE] -/
opaque endpoint : Nat
/-- MAC address that an IP address of a neighbour is reached at: no rule says how the module finds it. [log 9: DESIGN CHOICE] -/
opaque neighbourMac : Nat → Nat
/-- Fields of transmitted headers that no rule fixes: 0 = hop limit or TTL, 1 = traffic class, 2 = identification, 3 = UDP source port
of the event mirror. [log 9: DESIGN CHOICE] -/
opaque ipField : Nat → Nat

/-- Next state of a chanter's 32-bit tag generator: R469 gives no polynomial. [log 13: DESIGN CHOICE] -/
opaque tagNext : Nat → Nat
/-- SA of the loop that carries a shelf's copies and forwarded messages (R107, R396). [log 9: DESIGN CHOICE] -/
opaque loopSa : Nat → Nat
/-- Forwarding depth that an arriving loop message has reached (R397). [log 9: DESIGN CHOICE] -/
opaque arrivalDepth : Nat → Nat

/-- Key of the stored record that a placement record of `mapq` names (R211). [log 12: DESIGN CHOICE] -/
opaque cunitOf : Bytes → Nat

/-- Fault code of an optical engine that gives no sample for 100 ms (R475 names none). [log 13: DESIGN CHOICE] -/
opaque opticsTimeoutCode : Nat → Nat
/-- ACTION item of MEMORY_UE by store code and unit: R481 gives no coding. [log 13: DESIGN CHOICE] -/
opaque memoryAction : Nat → Nat → Nat

/-- Rebuild position of a member at an instant, in stripes: set, bay of the member and instant (R308). No command names the rebuild's steps.
[log 12: DESIGN CHOICE] -/
opaque rebuildPosition : Nat → Nat → Nat → Nat
/-- Next stripe the scrub of a set reads, by set and instant (R290). [log 12: DESIGN CHOICE] -/
opaque scrubPosition : Nat → Nat → Nat
/-- Bytes that the operation in service on a compression lane side has taken and delivered: lane and instant (R234). [log 12: DESIGN CHOICE] -/
opaque laneConsumed : Nat → Nat → Nat
/-- Bytes delivered. [log 12: DESIGN CHOICE] -/
opaque laneProduced : Nat → Nat → Nat

end Sys2Proof.Config
end

