-- ==== Sys2Proof/Machine/Crypto.lean ====
section
/-! DEFINITION. The published algorithms the spec names, over byte strings: AES-256, GCM (SP 800-38D), XTS (IEEE 1619) with
ciphertext stealing, AES key wrap (SP 800-38F), SHAKE256 (FIPS 202), CRC-64 (R270) and CRC-32C. -/

namespace Sys2Proof.Machine

open Sys2Proof

/-! ## AES-256 (FIPS 197) -/

namespace Aes

/-- The S-box, byte `i` at bits `8i`. -/
def boxes : Nat :=
  0x16bb54b00f2d99416842e6bf0d89a18cdf2855cee9871e9b948ed9691198f8e19e1dc186b95735610ef6034866b53e708a8bbd4b1f74dde8c6b4a61c2e2578ba08ae7a65eaf4566ca94ed58d6d37c8e779e4959162acd3c25c2406490a3a32e0db0b5ede14b8ee4688902a22dc4f816073195d643d7ea7c41744975fec130ccdd2f3ff1021dab6bcf5389d928f40a351a89f3c507f02f94585334d43fbaaefd0cf584c4a39becb6a5bb1fc20ed00d153842fe329b3d63b52a05a6e1b1a2c830975b227ebe28012079a059618c323c7041531d871f1e5a534ccf73f362693fdb7c072a49cafa2d4adf04759fa7dc982ca76abd7fe2b670130c56f6bf27b777c63

/-- The inverse S-box. -/
def inverseBoxes : Nat :=
  0x7d0c2155631469e126d677ba7e042b17619953833cbbebc8b0f52aae4d3be0a0ef9cc9939f7ae52d0d4ab519a97f51605fec8027591012b131c7078833a8dd1ff45acd78fec0db9a2079d2c64b3e56fc1bbe18aa0e62b76f89c5291d711af1476edf751ce837f9e28535ade72274ac9673e6b4f0cecff297eadc674f4111913a6b8a130103bdafc1020f3fca8f1e2cd00645b3b80558e4f70ad3bc8c00abd890849d8da75746155edab9edfd5048706c92b6655dcc5ca4d41698688664f6f87225d18b6d49a25b76b224d92866a12e084ec3fa420b954cee3d23c2a632947b54cbe9dec444438e3487ff2f9b8239e37cfbd7f3819ea340bf38a53630d56a0952

/-- The S-box of a byte. -/
def sub (b : Nat) : Nat := boxes / 2 ^ (8 * b) % 256
/-- The inverse S-box of a byte. -/
def unsub (b : Nat) : Nat := inverseBoxes / 2 ^ (8 * b) % 256

/-- Product by x in the field of AES. -/
def xtime (b : Nat) : Nat := if b < 128 then 2 * b else Nat.xor (2 * b - 256) 0x1B

/-- Product in the field of AES, over the bits of the first factor. -/
def mul (a b : Nat) : Nat :=
  let rec go : Nat → Nat → Nat → Nat
    | 0, _, _ => 0
    | n + 1, a, b => Nat.xor (if a % 2 = 1 then b else 0) (go n (a / 2) (xtime b))
  go 8 a b

/-- XOR of two lists, element by element. -/
def xors (a b : List Nat) : List Nat := List.zipWith Nat.xor a b

/-- The next words of the key schedule: `i` the index of the word, the schedule newest word first. -/
def schedule : Nat → Nat → Nat → List (List Nat) → List (List Nat)
  | 0, _, _, w => w
  | n + 1, i, rcon, w =>
    let prev := w.headD []
    let base := w.getD 7 []
    let t := match i % 8 with
      | 0 => xors ((prev.rotateLeft 1).map sub) [rcon, 0, 0, 0]
      | 4 => prev.map sub
      | _ => prev
    schedule n (i + 1) (if i % 8 = 0 then xtime rcon else rcon) (xors base t :: w)

/-- A list cut into pieces of four. -/
def quads : List Nat → List (List Nat)
  | a :: b :: c :: d :: t => [a, b, c, d] :: quads t
  | _ => []

/-- The 15 round keys of a 32-byte key, 16 bytes each. -/
def roundKeys (key : Bytes) : List (List Nat) :=
  let words := (schedule 52 8 1 (quads ((padTo 32 key).map BitVec.toNat)).reverse).reverse
  (List.range 15).map fun r => ((List.range 4).map fun c => words.getD (4 * r + c) []).flatten

/-- Rows shifted: byte `i` of the new state comes from byte `5i` (mod 16). -/
def shiftRows (s : List Nat) : List Nat := (List.range 16).map fun i => s.getD (5 * i % 16) 0
/-- Rows shifted back. -/
def unshiftRows (s : List Nat) : List Nat := (List.range 16).map fun i => s.getD (13 * i % 16) 0

/-- One column mixed by the coefficients of its first row. -/
def mixColumn (k c : List Nat) : List Nat :=
  (List.range 4).map fun r => (List.range 4).foldl (fun x j => Nat.xor x (mul (k.getD ((j + 4 - r) % 4) 0) (c.getD j 0))) 0

/-- Every column mixed. -/
def mixColumns (k s : List Nat) : List Nat := ((quads s).map (mixColumn k)).flatten

/-- The rounds of encryption after the first key. -/
def rounds : List (List Nat) → List Nat → List Nat
  | [], s => s
  | [k], s => xors (shiftRows (s.map sub)) k
  | k :: t, s => rounds t (xors (mixColumns [2, 3, 1, 1] (shiftRows (s.map sub))) k)

/-- The rounds of decryption after the last key. -/
def unrounds : List (List Nat) → List Nat → List Nat
  | [], s => s
  | [k], s => xors ((unshiftRows s).map unsub) k
  | k :: t, s => unrounds t (mixColumns [14, 11, 13, 9] (xors ((unshiftRows s).map unsub) k))

/-- Bytes as numbers. -/
def nats (b : Bytes) : List Nat := b.map BitVec.toNat
/-- Numbers as bytes. -/
def bytes (l : List Nat) : Bytes := l.map (BitVec.ofNat 8)

/-- One block encrypted under a 32-byte key. -/
def encrypt (key block : Bytes) : Bytes := match roundKeys key with
  | k :: t => bytes (rounds t (xors (nats (padTo 16 block)) k))
  | [] => block

/-- One block decrypted. -/
def decrypt (key block : Bytes) : Bytes := match (roundKeys key).reverse with
  | k :: t => bytes (unrounds t (xors (nats (padTo 16 block)) k))
  | [] => block

end Aes

/-- XOR of two byte strings, as long as the shorter. -/
def xorBytes (a b : Bytes) : Bytes := List.zipWith (fun x y => x ^^^ y) a b

/-- A byte string cut into blocks of `n` bytes, the last one short. -/
def chunks (n : Nat) (b : Bytes) : List Bytes :=
  (List.range ((b.length + n - 1) / max 1 n)).map fun i => (b.drop (i * n)).take n

/-! ## GCM (SP 800-38D) -/

namespace Gcm

/-- Product in GF(2^128): blocks as big-endian numbers, the leftmost bit the constant term. -/
def mul (x y : Nat) : Nat :=
  let rec go : Nat → Nat → Nat
    | 0, _ => 0
    | n + 1, v =>
      let next := if v % 2 = 1 then Nat.xor (v / 2) (0xE1 * 2 ^ 120) else v / 2
      Nat.xor (if x / 2 ^ n % 2 = 1 then v else 0) (go n next)
  go 128 y

/-- GHASH of whole blocks under H. -/
def ghash (h : Nat) (l : List Bytes) : Nat := l.foldl (fun y b => mul (Nat.xor y (beNat (padTo 16 b))) h) 0

/-- The key stream's counter mode from a counter value on, over a text. -/
def ctr (key nonce : Bytes) (from' : Nat) (text : Bytes) : Bytes :=
  let l := chunks 16 text
  ((List.range l.length).zip l).foldr (fun p acc => xorBytes p.2 (Aes.encrypt key (nonce ++ beBytes 4 (from' + p.1))) ++ acc) []

/-- The tag of a ciphertext and its additional data. -/
def tag (key nonce aad cipher : Bytes) : Bytes :=
  let h := beNat (Aes.encrypt key (zeros 16))
  let lengths := beBytes 8 (8 * aad.length) ++ beBytes 8 (8 * cipher.length)
  let s := ghash h (chunks 16 aad ++ chunks 16 cipher ++ [lengths])
  xorBytes (beBytes 16 s) (Aes.encrypt key (nonce ++ beBytes 4 1))

/-- Ciphertext and tag of a text. -/
def encrypt (key nonce aad text : Bytes) : Bytes × Bytes :=
  let c := ctr key nonce 2 text
  (c, tag key nonce aad c)

/-- The text of a ciphertext whose tag verifies. -/
def decrypt (key nonce aad cipher got : Bytes) : Option Bytes :=
  if tag key nonce aad cipher = got then some (ctr key nonce 2 cipher) else none

end Gcm

/-! ## XTS (IEEE 1619) -/

namespace Xts

/-- The next block's tweak: product by alpha. -/
def next (t : Nat) : Nat := let x := 2 * t; if x ≥ 2 ^ 128 then Nat.xor (x - 2 ^ 128) 0x87 else x

/-- One block under a tweak, by a block function. -/
def block (f : Bytes → Bytes) (t : Nat) (b : Bytes) : Bytes :=
  let m := leBytes 16 t
  xorBytes (f (xorBytes b m)) m

/-- Blocks in order; a short last block steals from the block before it. -/
def encryptFrom (f : Bytes → Bytes) : Nat → List Bytes → Bytes
  | _, [] => []
  | t, [b] => block f t b
  | t, [a, b] =>
    if b.length = 16 then block f t a ++ block f (next t) b
    else
      let c := block f t a
      block f (next t) (b ++ c.drop b.length) ++ c.take b.length
  | t, a :: l => block f t a ++ encryptFrom f (next t) l

/-- The inverse, tweaks of the last two blocks swapped where the last is short. -/
def decryptFrom (f : Bytes → Bytes) : Nat → List Bytes → Bytes
  | _, [] => []
  | t, [b] => block f t b
  | t, [a, b] =>
    if b.length = 16 then block f t a ++ block f (next t) b
    else
      let p := block f (next t) a
      block f t (b ++ p.drop b.length) ++ p.take b.length
  | t, a :: l => block f t a ++ decryptFrom f (next t) l

/-- A data unit encrypted: key 1 for the data, key 2 for the 16-byte tweak. -/
def encrypt (key1 key2 tweak text : Bytes) : Bytes :=
  encryptFrom (Aes.encrypt key1) (leNat (Aes.encrypt key2 tweak)) (chunks 16 text)

/-- A data unit decrypted. -/
def decrypt (key1 key2 tweak text : Bytes) : Bytes :=
  decryptFrom (Aes.decrypt key1) (leNat (Aes.encrypt key2 tweak)) (chunks 16 text)

end Xts

/-! ## Key wrap (SP 800-38F, KW) -/

namespace KeyWrap

/-- One step of unwrapping: the counter, the register A and the blocks. -/
def step (key : Bytes) (n t : Nat) (s : Bytes × List Bytes) : Bytes × List Bytes :=
  let i := (t - 1) % n
  let b := Aes.decrypt key (xorBytes s.1 (beBytes 8 t) ++ s.2.getD i [])
  (b.take 8, s.2.set i (b.drop 8))

/-- The key that an image wraps under a key, where its integrity value is right. -/
def unwrap (key image : Bytes) : Option Bytes :=
  let l := chunks 8 image
  let n := l.length - 1
  if image.length % 8 ≠ 0 ∨ n < 2 then none else
  let r := (List.range (6 * n)).foldl (fun s k => step key n (6 * n - k) s) (l.headD [], l.drop 1)
  if r.1 = List.replicate 8 0xA6 then some r.2.flatten else none

end KeyWrap

/-! ## SHAKE256 (FIPS 202) -/

namespace Keccak

/-- Round constants. -/
def constants : List Nat := [0x1, 0x8082, 0x800000000000808a, 0x8000000080008000, 0x808b, 0x80000001, 0x8000000080008081, 0x8000000000008009,
  0x8a, 0x88, 0x80008009, 0x8000000a, 0x8000808b, 0x800000000000008b, 0x8000000000008089, 0x8000000000008003,
  0x8000000000008002, 0x8000000000000080, 0x800a, 0x800000008000000a, 0x8000000080008081, 0x8000000000008080, 0x80000001, 0x8000000080008008]

/-- Rotations of the lanes, lane x + 5y at place x + 5y. -/
def offsets : List Nat := [0, 1, 62, 28, 27, 36, 44, 6, 55, 20, 3, 10, 43, 25, 39, 41, 45, 15, 21, 8, 18, 2, 61, 56, 14]

/-- A lane rotated left. -/
def rotl (v n : Nat) : Nat := v * 2 ^ n % 2 ^ 64 + v / 2 ^ (64 - n)

/-- One round over 25 lanes. -/
def round (a : List Nat) (rc : Nat) : List Nat :=
  let c := (List.range 5).map fun x => [0, 5, 10, 15, 20].foldl (fun v y => Nat.xor v (a.getD (x + y) 0)) 0
  let e := (List.range 5).map fun x => Nat.xor (c.getD ((x + 4) % 5) 0) (rotl (c.getD ((x + 1) % 5) 0) 1)
  let t := (List.range 25).map fun i => rotl (Nat.xor (a.getD i 0) (e.getD (i % 5) 0)) (offsets.getD i 0)
  -- lane (y, 2x + 3y) of the new state comes from lane (x, y)
  let b := (List.range 25).map fun i => t.getD ((i % 5 + 3 * (i / 5)) % 5 + 5 * (i % 5)) 0
  let r := (List.range 25).map fun i =>
    let row := i / 5 * 5
    Nat.xor (b.getD i 0) (Nat.land (2 ^ 64 - 1 - b.getD (row + (i + 1 - row) % 5) 0) (b.getD (row + (i + 2 - row) % 5) 0))
  match r with
  | v :: l => Nat.xor v rc :: l
  | [] => []

/-- The permutation of 24 rounds. -/
def permute (a : List Nat) : List Nat := constants.foldl round a

/-- A block of 136 bytes absorbed. -/
def absorb (a : List Nat) (b : Bytes) : List Nat :=
  permute ((List.range 25).map fun i => Nat.xor (a.getD i 0) (if i < 17 then leAt b (8 * i) 8 else 0))

/-- The bytes of a state that the rate covers. -/
def rate (a : List Nat) : Bytes := ((List.range 17).map fun i => leBytes 8 (a.getD i 0)).flatten

/-- Output blocks squeezed from a state. -/
def squeeze : Nat → List Nat → Bytes
  | 0, _ => []
  | n + 1, a => rate a ++ squeeze n (permute a)

/-- A message padded for SHAKE: the suffix 1111, one 1, and the final 1 bit of the block. -/
def pad (m : Bytes) : Bytes :=
  let fill := 136 - m.length % 136
  if fill = 1 then m ++ [0x9F] else m ++ [0x1F] ++ zeros (fill - 2) ++ [0x80]

end Keccak

/-- SHAKE256 of a message to a number of bytes. -/
def shake256 (m : Bytes) (n : Nat) : Bytes :=
  let a := (chunks 136 (Keccak.pad m)).foldl Keccak.absorb (List.replicate 25 0)
  (Keccak.squeeze ((n + 135) / 136) a).take n

/-- ASCII bytes of a string. -/
def ascii (s : String) : Bytes := s.toList.map fun c => BitVec.ofNat 8 c.toNat

/-! ## Cyclic redundancy checks -/

/-- A reflected CRC's register after the low `n` bits of it have been shifted out. -/
def crcShift (poly : Nat) : Nat → Nat → Nat
  | 0, c => c
  | n + 1, c => crcShift poly n (if c % 2 = 1 then Nat.xor (c / 2) poly else c / 2)

/-- A reflected CRC of a width with all-ones start and final XOR, by its reflected polynomial. -/
def crc (width poly : Nat) (b : Bytes) : Nat :=
  Nat.xor (b.foldl (fun c x => crcShift poly 8 (Nat.xor c x.toNat)) (2 ^ width - 1)) (2 ^ width - 1)

/-- CRC-64 of R270: polynomial 0xAD93_D235_94C9_3659, reflected. -/
def crc64 (b : Bytes) : Nat := crc 64 0x9A6C9329AC4BC9B5 b

/-- CRC-32C: polynomial 0x1EDC_6F41, reflected. -/
def crc32c (b : Bytes) : Nat := crc 32 0x82F63B78 b

end Sys2Proof.Machine
end

