-- ==== Sys2Proof/Machine/Coder.lean ====
section
/-! DEFINITION. Check fields (R139, R140, R269, R270) and the cunit stream: header, check section, the raster coder, the
dictionary coder and undecodable streams (R215 to R228). -/

namespace Sys2Proof.Machine

open Sys2Proof

/-! ## Check fields -/

/-- The check field of a block with its guard, an application tag and the reference tag of an LBA. -/
def checkField (block : Bytes) (appTag lba : Nat) : Bytes := beBytes 8 (crc64 block) ++ beBytes 2 appTag ++ beBytes 6 lba

/-- Check fields generated for a run of blocks from a first LBA. -/
def checkFields (data : Bytes) (appTag lba blocks : Nat) : Bytes :=
  ((List.range blocks).map fun i => checkField (slice data (4096 * i) 4096) appTag (lba + i)).flatten

/-- What is wrong with one check field: the guard before the application tag before the reference tag (R102). -/
def checkFault (block field : Bytes) (appTag : Option Nat) (lba : Nat) : Option Nat :=
  if beNat (slice field 0 8) ≠ crc64 block then some 0x20
  else if (appTag.map fun t => beNat (slice field 8 2) != t % 65536).getD false then some 0x22
  else if beNat (slice field 10 6) ≠ lba % 2 ^ 48 then some 0x21
  else none

/-- The lowest failing block of a run and its status. -/
def firstFault (data checks : Bytes) (appTag : Option Nat) (lba blocks : Nat) : Option (Nat × Nat) :=
  (List.range blocks).findSome? fun i =>
    (checkFault (slice data (4096 * i) 4096) (slice checks (16 * i) 16) appTag (lba + i)).map fun st => (i, st)

/-! ## The CODER field (R217) -/

/-- The fields of a CODER value. -/
structure Coder where
  method : Nat
  mosaic : Bool
  bits : Nat
  width : Nat
  deriving DecidableEq, Repr

/-- A CODER value taken apart. -/
def Coder.of (v : Nat) : Coder := { method := bitsOf v 0 2, mosaic := bitOf v 2, bits := bitsOf v 3 5, width := bitsOf v 8 16 }

/-- A CODER value keeps the rules of R217. -/
def coderOk (v : Nat) : Bool :=
  let c := Coder.of v
  bitsOf v 24 8 == 0 && match c.method with
    | 2 => decide (8 ≤ c.bits) && decide (c.bits ≤ 16) && c.width != 0 && !(c.mosaic && c.width % 2 == 1)
    | 3 => false
    | _ => bitsOf v 2 30 == 0

/-- Bytes of a sample container. -/
def Coder.container (c : Coder) : Nat := if c.bits = 8 then 1 else 2

namespace Raster

/-- What a raster stream's samples are laid out by. -/
structure Shape where
  bits : Nat
  width : Nat
  mosaic : Bool
  startX : Nat
  parity : Nat
  deriving DecidableEq, Repr

/-- Step between neighbours of one colour. -/
def Shape.step (h : Shape) : Nat := if h.mosaic then 2 else 1

/-- Channel of the sample at a column and row (R222). -/
def Shape.channel (h : Shape) (x r : Nat) : Nat := if h.mosaic then 2 * ((h.parity + r) % 2) + x % 2 else 0

/-- The median predictor. -/
def med (a l c : Nat) : Nat := if c ≥ max a l then min a l else if c ≤ min a l then max a l else a + l - c

/-- Prediction for the sample of stream index `i` from those before it (R223). -/
def Shape.predict (h : Shape) (s : Array Nat) (i : Nat) : Nat :=
  let p := h.startX + i
  let x := p % h.width
  let r := p / h.width
  let d := h.step
  let left := decide (d ≤ x) && (decide (0 < r) || decide (h.startX ≤ x - d))
  let up := decide (d ≤ r) && (decide (d < r) || decide (h.startX ≤ x))
  let corner := decide (d ≤ x) && decide (d ≤ r) && (decide (d < r) || decide (h.startX ≤ x - d))
  let val (xx rr : Nat) : Nat := s.getD (rr * h.width + xx - h.startX) 0
  if left && up && corner then med (val x (r - d)) (val (x - d) r) (val (x - d) (r - d))
  else if left then val (x - d) r
  else if up then val x (r - d)
  else 2 ^ (h.bits - 1)

/-- Residual mapped to an unsigned value (R224). -/
def mapped (bits s pred : Nat) : Nat :=
  let e := (s + 2 ^ bits - pred) % 2 ^ bits
  if e ≥ 2 ^ (bits - 1) then 2 * (2 ^ bits - e) - 1 else 2 * e

/-- The sample that a mapped value spells. -/
def unmapped (bits m pred : Nat) : Nat :=
  if m % 2 = 0 then (pred + m / 2) % 2 ^ bits else (pred + 2 ^ bits - (m + 1) / 2) % 2 ^ bits

/-- Adaptation state of one channel: S and N (R225). -/
abbrev Adapt := Nat × Nat

/-- State of a channel at the start of a stream: S = 2^(BITS - 6), at least 1. -/
def Shape.start (h : Shape) : List Adapt := List.replicate 4 (2 ^ (h.bits - 6), 1)

/-- The Rice parameter. -/
def rice (bits : Nat) (a : Adapt) : Nat := ((List.range bits).find? fun k => decide (a.2 * 2 ^ k ≥ a.1)).getD (bits - 1)

/-- A channel's state after a value. -/
def adapt (a : Adapt) (m : Nat) : Adapt := if a.2 + 1 = 64 then ((a.1 + m) / 2, 32) else (a.1 + m, a.2 + 1)

/-- The low `n` bits of a value, most significant first. -/
def bitsMsb (n v : Nat) : List Bool := (List.range n).map fun i => bitOf v (n - 1 - i)

/-- The codeword of a value (R226). -/
def codeword (bits k m : Nat) : List Bool :=
  let q := m / 2 ^ k
  if q < 20 then List.replicate q true ++ [false] ++ bitsMsb k m else List.replicate 20 true ++ bitsMsb bits m

/-- Codewords of the samples from index `i` on. -/
def encodeFrom (h : Shape) (s : Array Nat) : Nat → Nat → List Adapt → List (List Bool)
  | 0, _, _ => []
  | n + 1, i, st =>
    let p := h.startX + i
    let ch := h.channel (p % h.width) (p / h.width)
    let a := st.getD ch (1, 1)
    let m := mapped h.bits (s.getD i 0) (h.predict s i)
    codeword h.bits (rice h.bits a) m :: encodeFrom h s n (i + 1) (st.set ch (adapt a m))

/-- Bits packed into bytes from bit 7 down, the last byte filled with zeros. -/
def packBits (l : List Bool) : Bytes :=
  (List.range ((l.length + 7) / 8)).map fun i =>
    BitVec.ofNat 8 (((l.drop (8 * i)).take 8 ++ List.replicate 8 false).take 8 |>.foldl (fun v b => 2 * v + flag b) 0)

/-- The bits of a byte string. -/
def unpackBits (b : Bytes) : List Bool := (b.map fun x => bitsMsb 8 x.toNat).flatten

/-- Payload of a raster stream. -/
def encode (h : Shape) (s : Array Nat) : Bytes := packBits (encodeFrom h s s.size 0 h.start).flatten

/-- Leading ones of a bit string, at most `n`. -/
def leading : Nat → List Bool → Nat
  | n + 1, true :: t => leading n t + 1
  | _, _ => 0

/-- One codeword read: its value and the bits after it. -/
def readWord (bits k : Nat) (l : List Bool) : Option (Nat × List Bool) :=
  let value (t : List Bool) : Nat := t.foldl (fun v b => 2 * v + flag b) 0
  let q := leading 20 l
  if q < 20 then
    let t := l.drop (q + 1)
    if l.length ≤ q || t.length < k then none else some (q * 2 ^ k + value (t.take k), t.drop k)
  else
    let t := l.drop 20
    if t.length < bits then none else some (value (t.take bits), t.drop bits)

/-- Samples decoded from index `i` on: the samples and the bits left. -/
def decodeFrom (h : Shape) : Nat → Array Nat → List Adapt → List Bool → Option (Array Nat × List Bool)
  | 0, s, _, l => some (s, l)
  | n + 1, s, st, l =>
    let p := h.startX + s.size
    let ch := h.channel (p % h.width) (p / h.width)
    let a := st.getD ch (1, 1)
    match readWord h.bits (rice h.bits a) l with
    | none => none
    | some (m, l) =>
      if m ≥ 2 ^ h.bits then none
      else decodeFrom h n (s.push (unmapped h.bits m (h.predict s s.size))) (st.set ch (adapt a m)) l

/-- Samples of a payload, where it decodes. -/
def decode (h : Shape) (n : Nat) (payload : Bytes) : Option (Array Nat) :=
  match decodeFrom h n #[] h.start (unpackBits payload) with
  | some (s, rest) => if rest.length < 8 && rest.all (!·) then some s else none
  | none => none

/-- Samples of a container size in a byte string. -/
def samples (size : Nat) (b : Bytes) : Array Nat :=
  ((List.range (b.length / size)).map fun i => leAt b (size * i) size).toArray

end Raster

/-! ## The dictionary coder (R227) -/

/-- A match copied one byte at a time, onto reversed output. -/
def copyBack (dist : Nat) : Nat → Bytes → Bytes
  | 0, out => out
  | n + 1, out => copyBack dist n (out.getD (dist - 1) 0 :: out)

/-- Tokens decoded onto reversed output of at most `total` bytes. -/
def dictFrom (total : Nat) : Nat → Bytes → Bytes → Option Bytes
  | _, [], out => if out.length = total then some out.reverse else none
  | 0, _ :: _, _ => none
  | fuel + 1, v :: t, out =>
    if v.toNat < 128 then
      let n := v.toNat + 1
      if t.length < n || out.length + n > total then none else dictFrom total fuel (t.drop n) ((t.take n).reverse ++ out)
    else
      let n := v.toNat % 128 + 3
      let dist := leAt t 0 2 + 1
      if t.length < 2 || dist > out.length || out.length + n > total then none
      else dictFrom total fuel (t.drop 2) (copyBack dist n out)

/-- A DICT payload decoded into `total` bytes. -/
def dictDecode (total : Nat) (payload : Bytes) : Option Bytes := dictFrom total payload.length payload []

/-! ## Streams (R219 to R221) -/

/-- The check section: packed where every tag is common and the reference tags run on. -/
def checkSection (checks : Bytes) (blocks : Nat) : Bool × Bytes :=
  let f (i : Nat) : Bytes := slice checks (16 * i) 16
  let base := beNat (slice (f 0) 10 6)
  let packed := (List.range blocks).all fun i => slice (f i) 8 2 == slice (f 0) 8 2 && beNat (slice (f i) 10 6) == (base + i) % 2 ^ 48
  if packed then (true, slice (f 0) 8 8 ++ ((List.range blocks).map fun i => slice (f i) 0 8).flatten)
  else (false, slice checks 0 (16 * blocks))

/-- The check fields that a section spells. -/
def sectionFields (packed : Bool) (b : Bytes) (blocks : Nat) : Bytes :=
  if packed then
    ((List.range blocks).map fun i =>
      slice b (8 + 8 * i) 8 ++ slice b 0 2 ++ beBytes 6 ((beNat (slice b 2 6) + i) % 2 ^ 48)).flatten
  else slice b 0 (16 * blocks)

/-- A stream that `zc` makes, and which fallback it counts. -/
structure Encoded where
  bytes : Bytes
  method : Nat
  /-- RASTER met a sample above its range -/
  range : Bool
  /-- the coded payload did not shrink -/
  raw : Bool
  deriving DecidableEq, Repr

/-- A run of blocks encoded under a CODER value; `origin` is the LBA that R218 counts from. -/
def encodeStream (coder origin lba blocks : Nat) (data checks : Bytes) : Encoded :=
  let c := Coder.of coder
  let total := 4096 * blocks
  let p0 := (lba - origin) * 4096 / c.container
  let shape : Raster.Shape := {
    bits := c.bits, width := max 1 c.width, mosaic := c.mosaic, startX := p0 % max 1 c.width, parity := p0 / max 1 c.width % 2 }
  let s := Raster.samples c.container data
  let outOfRange := c.method == 2 && s.any fun x => decide (x ≥ 2 ^ c.bits)
  let coded : Option Bytes :=
    if c.method = 1 then some (Config.dictEncode data)
    else if c.method = 2 && !outOfRange then some (Raster.encode shape s)
    else none
  let used := coded.bind fun p => if p.length < total then some p else none
  let method := if used.isSome then c.method else 0
  let payload := used.getD data
  let (packed, sect') := checkSection checks blocks
  let raster := method == 2
  let header := leBytes 1 1 ++ leBytes 1 (method + 4 * flag packed) ++ leBytes 1 blocks ++ leBytes 1 (if raster then c.bits else 0) ++
    leBytes 4 payload.length ++ leBytes 2 (if raster then c.width else 0) ++ leBytes 2 (if raster then shape.startX else 0) ++
    leBytes 1 (if raster then flag c.mosaic + 2 * shape.parity else 0) ++ zeros 3
  { bytes := header ++ sect' ++ payload, method := method, range := outOfRange, raw := coded.isSome && used.isNone }

/-- Data and check fields of a stream of `blocks` blocks; `none` = undecodable (R228). -/
def decodeStream (b : Bytes) (blocks : Nat) : Option (Bytes × Bytes) :=
  let m := byteAt b 1
  let method := m % 4
  let packed := bitOf m 2
  let n := leAt b 4 4
  let width := leAt b 8 2
  let startX := leAt b 10 2
  let flags := byteAt b 12
  let sect := if packed then 8 + 8 * blocks else 16 * blocks
  let total := 4096 * blocks
  let bits := byteAt b 3
  let raster := method == 2
  let headerOk := byteAt b 0 == 1 && method != 3 && m / 8 == 0 && byteAt b 2 == blocks && decide (1 ≤ blocks) && decide (blocks ≤ 16) &&
    flags / 4 == 0 && zeroRange b 13 15 && b.length == 16 + sect + n &&
    (if method = 0 then n == total else decide (1 ≤ n) && decide (n < total)) &&
    (if raster then decide (8 ≤ bits) && decide (bits ≤ 16) && width != 0 && !(bitOf flags 0 && width % 2 == 1) && decide (startX < width)
     else bits == 0 && width == 0 && startX == 0 && flags == 0)
  if !headerOk then none else
  let payload := b.drop (16 + sect)
  let data : Option Bytes :=
    if method = 0 then some payload
    else if method = 1 then dictDecode total payload
    else
      let size := if bits = 8 then 1 else 2
      let shape : Raster.Shape := { bits := bits, width := width, mosaic := bitOf flags 0, startX := startX, parity := flags / 2 % 2 }
      (Raster.decode shape (total / size) payload).map fun s => (s.toList.map fun x => leBytes size x).flatten
  data.map fun d => (d, sectionFields packed (slice b 16 sect) blocks)

end Sys2Proof.Machine
end

