-- ==== Sys2Proof/Machine/RegisterMap.lean ====
section
/-! DEFINITION. The register map of the module: every register of every block at its BAR0 offset
(R446), its fields with their access codes (R7), reset values and the values a field can take (R10,
R11, R505). -/

namespace Sys2Proof.Machine

/-- Access codes of R7. -/
inductive Access where
  | ro | rw | w1c | wo | rc | rws
  deriving DecidableEq, Repr

/-- The values a field can take (R505). -/
inductive Takes where
  /-- every value -/
  | any
  /-- a value from `lo` to `hi` -/
  | range (lo hi : Nat)
  /-- the values listed -/
  | listed (vs : List Nat)
  /-- multiples of `n` -/
  | multiple (n : Nat)
  /-- 0, or a value from `lo` to `hi` -/
  | zeroOr (lo hi : Nat)
  /-- four 4-bit time source codes, each 0 to 4 -/
  | sourceCodes
  deriving DecidableEq, Repr

/-- One field of a register. -/
structure Field where
  /-- lowest bit -/
  lo : Nat
  /-- width in bits -/
  width : Nat
  /-- access code -/
  access : Access
  /-- value after a module reset -/
  reset : Nat
  /-- values a write may place -/
  takes : Takes
  deriving DecidableEq, Repr

/-- One register, or one column of like registers: `count` registers `stride` bytes apart. -/
structure Register where
  base : Nat
  stride : Nat
  count : Nat
  /-- 4 or 8 bytes -/
  bytes : Nat
  fields : List Field
  deriving DecidableEq, Repr

/-- A place where a field's value stands: register offset in BAR0, lowest bit, width. -/
structure Place where
  addr : Nat
  lo : Nat
  width : Nat
  deriving DecidableEq, Repr

/-- Whether a field can take a value. -/
def Takes.accepts : Takes → Nat → Bool
  | .any, _ => true
  | .range lo hi, v => decide (lo ≤ v) && decide (v ≤ hi)
  | .listed vs, v => vs.contains v
  | .multiple n, v => v % n == 0
  | .zeroOr lo hi, v => v == 0 || (decide (lo ≤ v) && decide (v ≤ hi))
  | .sourceCodes, v => [0, 4, 8, 12].all fun k => decide (bitsOf v k 4 ≤ 4)

namespace RegisterMap

/-! Block bases (R446). -/

/-- Control and trust. -/
def ctl : Nat := 0x000000
/-- Breath grid. -/
def brg : Nat := 0x100000
/-- Host port complex. -/
def hpc : Nat := 0x200000
/-- Switch core. -/
def swc : Nat := 0x300000
/-- Scheduler. -/
def sch : Nat := 0x400000
/-- Command front end. -/
def cmd : Nat := 0x500000
/-- Chanter array. -/
def cha : Nat := 0x600000
/-- Compression engine. -/
def cpe : Nat := 0x700000
/-- Cipher engine. -/
def cip : Nat := 0x800000
/-- Stripe engine. -/
def str : Nat := 0x900000
/-- Drive port complex. -/
def dpc : Nat := 0xA00000
/-- Power and insertion. -/
def pwr : Nat := 0xB00000
/-- PCIe management endpoint. -/
def pep : Nat := 0xC00000
/-- Counter collector. -/
def cnt : Nat := 0xD00000

/-- A read-only field. -/
def ro (lo w : Nat) (reset : Nat := 0) : Field := ⟨lo, w, .ro, reset, .any⟩
/-- A field that a read clears. -/
def rc (lo w : Nat) : Field := ⟨lo, w, .rc, 0, .any⟩
/-- A field written at once. -/
def rw (lo w reset : Nat) (t : Takes := .any) : Field := ⟨lo, w, .rw, reset, t⟩
/-- A write-only field. -/
def wo (lo w : Nat) (t : Takes := .any) : Field := ⟨lo, w, .wo, 0, t⟩
/-- A field whose 1 bits clear. -/
def w1c (lo w : Nat) : Field := ⟨lo, w, .w1c, 0, .any⟩
/-- A field that takes its value at the next edge. -/
def rws (lo w reset : Nat) (t : Takes := .any) : Field := ⟨lo, w, .rws, reset, t⟩
/-- A field that cannot take 0. -/
def nz (w : Nat) : Takes := .range 1 (2 ^ w - 1)
/-- One register. -/
def one (addr bytes : Nat) (fs : List Field) : Register := ⟨addr, 8, 1, bytes, fs⟩
/-- A column of registers. -/
def many (addr stride count bytes : Nat) (fs : List Field) : Register := ⟨addr, stride, count, bytes, fs⟩

/-- BRG registers (R32 to R54). -/
def brgRows : List Register :=
  [one (brg + 0x00) 8 [rws 0 48 1000000000000 (nz 48)],
   one (brg + 0x08) 4 [rws 0 16 120 (nz 16)],
   one (brg + 0x10) 8 [rws 0 48 0],
   one (brg + 0x18) 4 [rws 0 30 0 (.range 0 999999999)],
   one (brg + 0x20) 4 [rws 0 16 0 .sourceCodes],
   one (brg + 0x28) 4 [rws 0 9 0 (.range 0 259), rws 9 8 127, rws 17 2 0 (.range 0 2), rws 19 3 3 (nz 3), rws 22 1 0],
   one (brg + 0x30) 8 [rws 0 16 1 (nz 16), rws 16 1 0, rws 32 32 0],
   one (brg + 0x38) 8 [rws 0 1 0, rws 1 16 1 (nz 16), rws 17 15 1000, rws 32 32 0],
   one (brg + 0x40) 4 [rws 0 1 0],
   one (brg + 0x48) 8 [ro 0 2, ro 2 4, ro 6 1, ro 32 32],
   one (brg + 0x50) 8 [ro 0 64],
   one (brg + 0x58) 8 [ro 0 64],
   one (brg + 0x60) 8 [rws 0 48 0],
   one (brg + 0x68) 4 [rws 0 16 10],
   one (brg + 0x70) 4 [rc 0 32],
   one (brg + 0x74) 4 [rc 0 32]]

/-- HPC registers (R86); port n = 0-255 is P000-P255 and 256-259 are L0-L3. -/
def hpcRows : List Register :=
  [one (hpc + 0x00) 8 [rws 0 16 47107 (nz 16), rws 16 16 47108 (nz 16), rws 32 7 10 (.range 1 100), rws 40 7 32 (.range 1 64)],
   one (hpc + 0x08) 4 [rws 0 16 200 (.range 10 1000), rws 16 4 8 (.range 1 8)],
   one (hpc + 0x10) 8 [ro 0 21, ro 32 16 64000],
   one (hpc + 0x18) 4 [rws 0 16 20000 (nz 16)],
   one (hpc + 0x20) 4 [rc 0 32], one (hpc + 0x24) 4 [rc 0 32], one (hpc + 0x28) 4 [rc 0 32], one (hpc + 0x2C) 4 [rc 0 32],
   one (hpc + 0x30) 4 [rc 0 32], one (hpc + 0x34) 4 [rc 0 32], one (hpc + 0x38) 4 [rc 0 32], one (hpc + 0x3C) 4 [rc 0 32],
   many (hpc + 0x1000) 0x40 260 4 [rws 0 1 0, rws 1 2 0 (.range 0 2), rws 3 2 0, rws 5 1 0, rws 6 12 0, rws 18 1 1],
   many (hpc + 0x1004) 0x40 260 4 [ro 0 1, ro 1 2, ro 3 1],
   many (hpc + 0x1008) 0x40 256 8 [rws 0 1 0, rws 1 20 50000 (.range 1 50000), rws 21 16 1024 (nz 16)],
   many (hpc + 0x5008) 0x40 4 8 [rws 0 1 0, rws 1 20 400000 (.range 1 400000), rws 21 16 1024 (nz 16)],
   many (hpc + 0x1010) 0x40 260 8 [ro 0 16, ro 16 16, ro 32 16],
   many (hpc + 0x1018) 0x40 260 4 [rc 0 32], many (hpc + 0x101C) 0x40 260 4 [rc 0 32],
   many (hpc + 0x1020) 0x40 260 4 [rc 0 32], many (hpc + 0x1024) 0x40 260 4 [rc 0 32],
   many (hpc + 0x1028) 0x40 260 4 [ro 0 32], many (hpc + 0x102C) 0x40 260 4 [ro 0 32],
   many (hpc + 0x1030) 0x40 260 4 [rws 0 16 (2 ^ 16 - 1200)]]

/-- SWC and SCH registers (R325 to R344). -/
def swcRows : List Register :=
  [one (swc + 0x00) 8 [ro 0 20, ro 20 1, ro 21 2, ro 24 8, ro 32 21],
   one (swc + 0x08) 8 [rws 0 20 393216 (nz 20), rws 20 20 327680 (nz 20), rws 40 20 516096 (.range 1 516096)],
   one (swc + 0x10) 4 [rws 0 17 1024 (.range 64 65536)],
   one (swc + 0x18) 4 [rws 0 16 1024 (.range 1 16384), rws 16 16 2048 (nz 16)],
   one (swc + 0x1C) 4 [ro 0 32],
   one (swc + 0x20) 4 [rc 0 32], one (swc + 0x24) 4 [rc 0 32], one (swc + 0x28) 4 [rc 0 32], one (swc + 0x2C) 4 [rc 0 32],
   one (swc + 0x30) 8 [ro 0 64],
   many (swc + 0x100) 4 261 4 [rc 0 32],
   one (sch + 0x00) 8 [rws 0 1 0, rws 1 2 0 (.range 0 2), rws 8 16 1000 (nz 16), rws 32 17 512 (.range 1 65536)],
   one (sch + 0x08) 4 [rws 0 32 0], one (sch + 0x0C) 4 [ro 0 32], one (sch + 0x10) 4 [rc 0 32],
   one (sch + 0x14) 4 [rws 0 8 4 (nz 8), rws 8 8 4 (nz 8), rws 16 8 1 (nz 8)],
   one (sch + 0x18) 4 [ro 0 18], one (sch + 0x1C) 4 [rc 0 32]]

/-- CMD registers (R121 to R126). -/
def cmdRows : List Register :=
  [one (cmd + 0x00) 8 [rw 0 64 0 (.multiple 4096)], one (cmd + 0x08) 8 [rw 0 64 0 (.multiple 4096)],
   one (cmd + 0x10) 8 [rw 0 16 64 (.range 2 4096), rw 16 16 10, rw 32 1 0, rw 33 1 0, rw 34 11 0],
   one (cmd + 0x18) 4 [rws 0 16 1000 (.range 1 60000)],
   one (cmd + 0x1C) 4 [ro 0 32 256],
   one (cmd + 0x20) 8 [ro 0 1, ro 1 2, ro 3 16, ro 32 32],
   one (cmd + 0x28) 4 [ro 0 16], one (cmd + 0x2C) 4 [ro 0 21 1048576], one (cmd + 0x30) 4 [ro 0 22 1046528]]

/-- CHA, CPE and CIP registers (R186, R234, R254). -/
def engineRows : List Register :=
  [one (cha + 0x00) 4 [rws 0 9 48 (.range 0 384)], one (cha + 0x08) 8 [ro 0 48], one (cha + 0x10) 8 [ro 0 11 4, ro 32 21],
   one (cha + 0x18) 4 [rc 0 32], one (cha + 0x1C) 4 [ro 0 32], one (cha + 0x20) 4 [ro 0 9],
   one (cpe + 0x00) 8 [ro 0 16, ro 16 16], one (cpe + 0x08) 4 [ro 0 7, ro 16 7],
   one (cpe + 0x10) 4 [rc 0 32], one (cpe + 0x14) 4 [rc 0 32], one (cpe + 0x18) 4 [rc 0 32], one (cpe + 0x1C) 4 [rc 0 32],
   one (cpe + 0x20) 8 [ro 0 64], one (cpe + 0x28) 8 [ro 0 64],
   many (cpe + 0x100) 8 32 8 [ro 0 1, ro 1 2, ro 3 1, ro 4 17, ro 24 17],
   one (cip + 0x00) 8 [ro 0 64], one (cip + 0x08) 4 [ro 0 32], one (cip + 0x0C) 4 [ro 0 13, ro 16 13],
   one (cip + 0x10) 4 [ro 0 2, ro 2 1, ro 3 1], one (cip + 0x14) 4 [rc 0 32], one (cip + 0x18) 4 [ro 0 7, ro 16 7],
   one (cip + 0x1C) 4 [rc 0 32], one (cip + 0x20) 4 [rc 0 32], one (cip + 0x24) 4 [rc 0 32], one (cip + 0x28) 4 [ro 0 32],
   one (cip + 0x2C) 4 [rw 0 1 0, rw 1 1 0, wo 2 1, rw 3 5 0 (.range 0 3)],
   many (cip + 0x40) 8 4 8 [wo 0 64], one (cip + 0x60) 8 [ro 0 64]]

/-- STR registers (R298, R324). -/
def strRows : List Register :=
  [one (str + 0x00) 8 [ro 0 24, ro 32 24], one (str + 0x08) 8 [ro 0 22, ro 32 32], one (str + 0x10) 8 [ro 0 32, ro 32 21],
   one (str + 0x18) 4 [rws 0 12 10 (.range 1 3600)], one (str + 0x20) 4 [rc 0 32], one (str + 0x24) 4 [rc 0 32],
   one (str + 0x28) 8 [ro 0 32, ro 32 5],
   many (str + 0x1000) 0x80 16 8 [ro 0 3, ro 3 2, ro 5 2, ro 7 1, ro 8 5],
   many (str + 0x1008) 0x80 16 8 [ro 0 20, ro 32 20],
   many (str + 0x1010) 0x80 16 4 [rws 0 16 0 (.range 1 60000), rws 16 6 0 (.range 1 50)],
   many (str + 0x1018) 0x80 16 8 [ro 0 64], many (str + 0x1020) 0x80 16 8 [ro 0 64], many (str + 0x1028) 0x80 16 8 [ro 0 64],
   many (str + 0x1030) 0x80 16 8 [rws 0 16 1500 (.range 1 20000), rws 16 1 1, rws 24 8 64 (nz 8), ro 32 32],
   many (str + 0x1038) 0x80 16 8 [ro 0 16, ro 16 1, ro 32 20],
   many (str + 0x1040) 0x80 16 8 [ro 0 17, ro 24 40],
   many (str + 0x1048) 0x80 16 8 [rws 0 1 1, rws 8 8 28 (nz 8), rws 32 16 200 (.range 1 20000)],
   many (str + 0x1050) 0x80 16 8 [ro 0 64]]

/-- CTL registers of the control path, trust, fail-over, events, start-up and the management port. -/
def ctlRows : List Register :=
  [one 0x00 8 [ro 0 64], one 0x08 4 [ro 0 3, ro 3 1, ro 4 1, ro 5 1, ro 16 16], one 0x0C 4 [ro 0 8, ro 8 8],
   one 0x10 4 [ro 0 4, ro 4 1], one 0x14 4 [wo 0 16 (.listed [0xC7A5])], one 0x18 4 [rw 0 16 0 (.range 0 3600)],
   one 0x1C 4 [rc 0 32], one 0x20 4 [rc 0 32],
   one 0x30 8 [w1c 0 1, w1c 1 1, w1c 8 40], one 0x38 8 [wo 0 40],
   one 0x40 4 [rws 0 1 0], one 0x44 4 [ro 0 3, ro 3 6, ro 9 1, ro 10 1], one 0x48 4 [ro 0 32], one 0x4C 4 [ro 0 32],
   one 0x50 8 [ro 0 64], one 0x58 8 [ro 0 64],
   many 0x100 0x40 4 8 [rw 0 64 0], many 0x108 0x40 4 8 [rw 0 64 0], many 0x110 0x40 4 8 [rw 0 64 0],
   many 0x118 0x40 4 8 [rw 0 64 0], many 0x120 0x40 4 4 [rw 0 32 0], many 0x128 0x40 4 8 [rw 0 64 0],
   many 0x130 0x40 4 4 [wo 0 2 (.range 0 2), wo 2 1], many 0x138 0x40 4 4 [ro 0 2, ro 4 4, ro 8 24],
   one 0x200 8 [ro 0 2, ro 2 1, ro 3 1, ro 4 1, ro 5 1, ro 16 16, ro 32 32], one 0x208 4 [rws 0 1 0], one 0x20C 4 [rws 0 16 0],
   one 0x210 8 [rws 0 2 0, rws 2 6 0, rws 8 6 0, rws 16 4 4 (nz 4)], one 0x218 4 [rc 0 32], one 0x21C 4 [rc 0 32],
   one 0x300 8 [rw 0 64 0 (.multiple 4096)], one 0x308 4 [rw 0 16 256 (.range 2 65535), rw 16 1 0, rw 17 1 0, rw 18 11 0],
   one 0x30C 4 [ro 0 16], one 0x310 4 [rw 0 16 0], one 0x314 4 [rws 0 32 0xFFFFFFFF],
   one 0x318 4 [rc 0 32], one 0x31C 4 [rc 0 32], one 0x320 4 [rc 0 32],
   one 0x400 4 [ro 0 3, ro 3 3, ro 6 1, ro 7 1, ro 8 1, ro 16 16], one 0x404 4 [rws 0 8 20 (nz 8)],
   one 0x500 4 [rws 0 1 0, rws 1 1 0, rws 16 16 47109 (nz 16)], one 0x504 4 [rc 0 32],
   many 0x510 8 2 8 [rws 0 64 0], many 0x520 8 2 8 [rws 0 64 0],
   many 0x600 8 64 8 [rws 0 2 0, rws 2 2 0, rws 4 1 0]]

/-- DPC and PWR registers (R417, R442). -/
def bayRows : List Register :=
  [one (dpc + 0x00) 8 [rws 0 10 10 (.range 1 1000), rws 10 16 1000 (.range 10 60000), rws 26 16 5000 (.range 100 60000),
     rws 42 14 500 (.range 10 10000), rws 56 6 10 (.range 1 60), rws 62 1 0],
   one (dpc + 0x08) 4 [rws 0 8 100 (nz 8)],
   many (dpc + 0x1000) 0x80 32 4 [ro 0 3, ro 3 3, ro 8 8 100, ro 16 4],
   many (dpc + 0x1004) 0x80 32 4 [rc 0 32], many (dpc + 0x1008) 0x80 32 4 [rc 0 32], many (dpc + 0x100C) 0x80 32 4 [rc 0 32],
   many (dpc + 0x1010) 0x80 32 4 [ro 0 16],
   one (pwr + 0x00) 4 [ro 0 3, ro 3 3, ro 6 2, ro 8 1, ro 9 1, ro 10 1], one (pwr + 0x04) 4 [rws 0 1 1, rws 1 1 0],
   one (pwr + 0x08) 4 [ro 0 32], one (pwr + 0x0C) 4 [ro 0 32], one (pwr + 0x10) 4 [ro 0 32], one (pwr + 0x18) 8 [ro 0 64],
   one (pwr + 0x20) 8 [ro 0 16, ro 16 1, ro 17 1, ro 18 1, ro 20 12, ro 32 16, ro 48 2],
   one (pwr + 0x28) 4 [rws 0 5 5 (.range 1 20)],
   one (pwr + 0x30) 8 [rws 0 1 0, rws 1 7 100 (.range 0 100), rws 8 7 30 (.range 20 100), rws 16 8 40, rws 24 8 85,
     rws 32 16 500 (.range 300 10000)],
   many (pwr + 0x40) 8 6 4 [ro 0 16, ro 16 7 100, ro 23 1],
   many (pwr + 0x1000) 0x20 32 4 [rws 0 1 1, rws 1 1 0, rws 2 1 1, rws 3 1 0],
   many (pwr + 0x1004) 0x20 32 4 [ro 0 3, ro 3 1, ro 4 1, ro 5 3, ro 8 2, ro 10 1],
   many (pwr + 0x1008) 0x20 32 8 [ro 0 16, ro 16 16, ro 32 16], many (pwr + 0x1010) 0x20 32 8 [ro 0 64],
   many (pwr + 0x1018) 0x20 32 4 [rc 0 32]]

/-- PEP and CNT registers (R458, R472). -/
def pepRows : List Register :=
  [one (pep + 0x00) 4 [ro 0 32 0x48325045], one (pep + 0x04) 4 [ro 0 3, ro 3 5, ro 8 1, ro 9 1, ro 16 16],
   one (pep + 0x08) 4 [rw 0 10 10 (.range 1 1000), rw 10 10 100 (.range 1 1000), rw 20 12 0], one (pep + 0x0C) 4 [ro 0 16, ro 16 2],
   one (pep + 0x10) 8 [wo 0 64], one (pep + 0x18) 8 [rw 0 64 0], one (pep + 0x20) 4 [ro 0 1, ro 1 6, ro 7 3, ro 10 1],
   one (pep + 0x24) 4 [rc 0 32], one (pep + 0x28) 4 [rc 0 32], one (pep + 0x2C) 4 [rc 0 32], one (pep + 0x30) 4 [rc 0 32],
   many (pep + 0x1000) 0x20 64 8 [rw 0 1 0, rw 1 1 0, rw 2 1 0, rw 4 5 0, rw 12 24 0],
   many (pep + 0x1008) 0x20 64 4 [rw 0 32 0], many (pep + 0x1010) 0x20 64 8 [rw 0 64 0 (.multiple 4096)],
   many (pep + 0x2000) 0x20 64 8 [ro 0 1, ro 1 1, ro 2 1, ro 4 5, ro 12 24],
   many (pep + 0x2008) 0x20 64 4 [ro 0 32], many (pep + 0x2010) 0x20 64 8 [ro 0 64],
   one (cnt + 0x00) 4 [rw 0 1 0, rw 1 1 0, rw 2 1 0, wo 3 1, rw 16 16 0], one (cnt + 0x04) 4 [ro 0 1, ro 1 1],
   one (cnt + 0x08) 8 [ro 0 64], one (cnt + 0x10) 4 [rws 0 32 0], one (cnt + 0x14) 4 [ro 0 32], one (cnt + 0x18) 4 [rc 0 32],
   one (cnt + 0x20) 8 [rws 0 1 0, rws 1 5 20 (.range 9 30), rws 32 32 0], one (cnt + 0x28) 8 [rws 0 48 0],
   one (cnt + 0x30) 4 [rws 0 32 0], one (cnt + 0x34) 4 [rws 0 32 0], one (cnt + 0x38) 4 [ro 0 32], one (cnt + 0x3C) 4 [rc 0 32],
   one (cnt + 0x40) 8 [w1c 0 64], one (cnt + 0x48) 8 [w1c 0 32],
   many (cnt + 0x100) 0x10 96 8 [rws 0 8 0, rws 8 1 0, rws 9 2 1 (.range 0 2), rws 12 16 0xFFFF, rws 28 24 0],
   many (cnt + 0x108) 0x10 96 8 [rw 0 48 0],
   one (cnt + 0x8000) 8 [rw 0 13 0 (.zeroOr 16 4096), rw 16 13 0, ro 32 1 1, ro 40 24],
   many (cnt + 0x8010) 8 2 8 [rw 0 64 0], many (cnt + 0x9000) 8 512 8 [rw 0 64 0], many (cnt + 0xA000) 8 514 8 [ro 0 64]]

/-- Every register of the module. -/
def rows : List Register :=
  brgRows ++ hpcRows ++ swcRows ++ cmdRows ++ engineRows ++ strRows ++ ctlRows ++ bayRows ++ pepRows

end RegisterMap

/-- Whether a column of registers has a register at an offset. -/
def Register.at (r : Register) (addr : Nat) : Bool :=
  decide (r.base ≤ addr) && ((addr - r.base) % r.stride == 0) && decide ((addr - r.base) / r.stride < r.count)

/-- The register that begins at a BAR0 offset. -/
def registerAt (addr : Nat) : Option Register := RegisterMap.rows.find? fun r => r.at addr

/-- The reset word of a register: every field at its reset value, reserved bits 0 (R9). [log 5: DESIGN CHOICE] -/
def Register.resetWord (r : Register) : Nat := r.fields.foldl (fun w f => withBits w f.lo f.width f.reset) 0

/-- The word an unwritten register holds. -/
def resetWordAt (addr : Nat) : Nat := ((registerAt addr).map Register.resetWord).getD 0

end Sys2Proof.Machine
end

