-- ==== Sys2Proof/Machine/GridState.lean ====
section
/-! DEFINITION. The breath grid's state (R32 to R50) and the clock crossings' state (R53). -/

namespace Sys2Proof.Machine

/-- The time sources of R35, with the codes of BRG_REF_SEL. -/
inductive TimeSource where
  | ptp | syncIn | ref10m | peer
  deriving DecidableEq, Repr

/-- The grid states of BRG_STATUS.STATE (R38). -/
inductive GridMode where
  | freerun | acquiring | locked | holdover
  deriving DecidableEq, Repr

/-- What the filter and the qualification of one time source hold (R35). -/
structure SourceFilter where
  /-- last accepted offset samples in ps (reference time less local time), newest first, at most 5 -/
  samples : List Int := []
  /-- consecutive held-back PTP samples, newest first, at most 8 -/
  held : List Int := []
  /-- consecutive accepted samples towards qualification -/
  streak : Nat := 0
  qualified : Bool := false
  /-- instant of the last accepted sample, in ps -/
  lastAt : Option Nat := none
  /-- REF10M_IN has been in range for 100 ms (source 3 only) -/
  carrier : Bool := false
  deriving DecidableEq, Repr

/-- The breath grid. Instants are in ps of the module's local oscillator. -/
structure Grid where
  /-- BRG_BREATH: the breath number in force (R34) -/
  breath : Nat := 0
  /-- instant of the latest edge -/
  lastEdge : Nat := 0
  /-- instant of the next edge -/
  nextEdge : Nat := 0
  /-- remainder of the phase accumulator, in units of 1/SPAN_N ps (R32) -/
  remainder : Nat := 0
  /-- label the next edge takes where a re-seed has chosen it (R41) -/
  seamLabel : Option Nat := none
  mode : GridMode := .freerun
  /-- BRG_STATUS.ACTIVE_SRC -/
  source : Option TimeSource := none
  /-- last source to which the grid was LOCKED since reset (R37) -/
  lastLocked : Option TimeSource := none
  /-- filtered offset of the source in use: reference time less local time, in ps -/
  offset : Int := 0
  /-- phase difference still to be closed by slewing, in ps; positive = edges must come earlier (R39) -/
  correction : Int := 0
  /-- correction closed since the slew began, in ps -/
  slewed : Int := 0
  /-- reference edge `anchorIndex` lies at reference time `anchorTime` (R32, R33) -/
  anchorTime : Int := 0
  anchorIndex : Nat := 0
  /-- a change of epoch that governs from the next time one of its sources is in use (R33) -/
  epochHeld : Bool := false
  /-- BRG_LABEL_OFFSET -/
  labelOffset : Nat := 0
  ptp : SourceFilter := {}
  syncIn : SourceFilter := {}
  ref10m : SourceFilter := {}
  peer : SourceFilter := {}
  /-- instant of the last SYNC_IN pulse -/
  lastSyncPulse : Option Nat := none
  /-- instant of the last PPS_IN pulse and the second it names -/
  lastPps : Option Nat := none
  ppsSecond : Nat := 0
  /-- a returning higher-priority source waiting for BRG_REVERT_HOLD (R37) -/
  reverting : Option TimeSource := none
  /-- rejected inputs of the current second, for TIME_INPUT_REJECT: PTP, SYNC_IN, REF10M_IN/PPS_IN -/
  rejects : Table Nat := []
  /-- consecutive heartbeats whose breath or edge disagreed (R49) -/
  skewCount : Nat := 0
  /-- the first lock lands as a re-seed at the next edge (R41) -/
  seamDue : Bool := false
  /-- number of this second's boundary-clock Sync messages sent (R36) -/
  masterSeq : Nat := 0
  deriving DecidableEq, Repr

/-- A register write held at a stopped clock crossing (R53). -/
structure HeldWrite where
  addr : Nat
  bytes : Nat
  value : Nat
  /-- client that wrote it -/
  client : Nat
  deriving DecidableEq, Repr

/-- The clock crossings: held writes per destination block, numbered as in CTL_XING_FLUSH (0-31 bays, 32 PEP, 33 PWR,
34-37 loop ports, 38 PL, 39 host MAC groups), and the writes that wait for one of the 16 entries. -/
structure Crossing where
  held : Table (List HeldWrite) := []
  waiting : Table (List HeldWrite) := []
  deriving DecidableEq, Repr

end Sys2Proof.Machine
end

