-- ==== Sys2Proof/Machine/State.lean ====
section
/-! DEFINITION. The whole state of the module, its faults and refusals, and the state after a module reset. -/

namespace Sys2Proof.Machine

open Sys2Proof

/-- A direct RWS write that waits for its edge (R8, R45): one field of a register and its value, its arrival, and the client that
made it. -/
structure LandingWrite where
  addr : Nat
  lo : Nat
  width : Nat
  value : Nat
  arrival : Nat
  client : Nat
  deriving DecidableEq, Repr

/-- The register file (R7, R8). A word that is not listed holds its reset word. -/
structure RegFile where
  /-- words in force, by BAR0 offset -/
  inForce : Table Nat := []
  /-- words last written, for the RWS fields of registers that have been written -/
  written : Table Nat := []
  /-- direct writes that have not met an edge, oldest first -/
  landing : List LandingWrite := []
  deriving DecidableEq, Repr

/-- What the module sends on its peer link, beside heartbeats (R336). [log 6: DESIGN CHOICE] -/
inductive PeerSend where
  | heartbeat (h : Heartbeat)
  | windowCopy (c : SlotCopy)
  | mirror (m : Mirrored)
  | forwarded (seq : Nat) (entry payload : Bytes)
  /-- data and check fields of a forwarded READ: admission count of the forwarding module, offset in the buffer (R155) -/
  | readData (origin off : Nat) (data checks : Bytes)
  /-- ADMIT_SEQ of the forwarding module, that of the owner, and the outcome -/
  | forwardedDone (seq admitSeq status result : Nat)
  | installed (x : Installed)
  | recoveryCopy (part : Nat)
  | certificates
  | claim (slot owned dumpBreath breath : Nat)
  | handover (set jseq : Nat)
  | acknowledge (kind : Nat)
  /-- a recovering loader asks for a firmware copy (R379) -/
  | copyRequest
  /-- the recovery copy held for the partner, or this module's running image -/
  | firmware (own : Bool)
  deriving DecidableEq, Repr

/-- What the module sends to the outside. [log 6: DESIGN CHOICE] -/
inductive Output where
  /-- a frame out of an egress point -/
  | frame (point : Nat) (bytes : Bytes)
  /-- a posted write into host memory -/
  | hostWrite (addr : Nat) (bytes : Bytes)
  /-- a non-posted read of host memory -/
  | hostRead (tag addr len : Nat)
  | interrupt (vector : Nat)
  /-- the answer to a BAR2 read; `none` = Unsupported Request -/
  | answer (tag : Nat) (bytes : Option Bytes)
  | peer (m : PeerSend)
  | nvme (bay cid : Nat) (use : NvmeUse)
  /-- the answer to a drive's inbound read -/
  | dma (bay addr len : Nat)
  /-- a SYNC_OUT pulse: the edge's label, the instant it begins and its width in ps (R47) -/
  | syncOut (edge : Nat) (start : Int) (width : Nat)
  /-- the value a register read returns -/
  | register (addr value : Nat)
  | management (bytes : Bytes)
  deriving DecidableEq, Repr

/-- The module: everything but the queue of waiting commands. -/
structure Dev where
  /-- instant of the command last carried out that names one, in ps of the local oscillator -/
  now : Nat := 0
  grid : Grid := {}
  crossing : Crossing := {}
  regs : RegFile := {}
  front : Front := {}
  control : Control := {}
  events : Table EventClient := []
  endpoint : Endpoint := {}
  transport : Transport := {}
  memory : Memory := {}
  chanters : Chanters := {}
  compression : Compression := {}
  cipher : Cipher := {}
  stripes : Stripes := {}
  switch : Switch := {}
  bays : Table Bay := []
  trust : Trust := {}
  peer : Peer := {}
  power : Power := {}
  counters : Counters := {}
  startUp : StartUp := {}
  mgmt : Mgmt := {}
  protection : Protection := {}
  /-- contents of the host's memory are outside the module; what the module sent, newest first (the model's own field) -/
  out : List Output := []
  /-- number of the next free value (the model's own field) -/
  draws : Nat := 0
  deriving DecidableEq, Repr

/-- The machine: the module and the commands that wait for it, first in first out. -/
structure State where
  pending : List Instr
  dev : Dev
  deriving DecidableEq, Repr

/-- Faults: none. Every command of the module answers a next state. [log 118: DESIGN CHOICE] -/
inductive Fault where
  /-- raised by nothing; kept so that the type is inhabited; safe -/
  | none
  deriving DecidableEq, Repr

/-- Refusals. [log 118: DESIGN CHOICE] -/
inductive Refusal where
  /-- raised by the arm of a command that has no meaning yet; safe -/
  | notModelled (mnemonic : String)
  deriving DecidableEq, Repr

/-- The outcome of a command or a step. -/
abbrev Answer := Host.Outcome State Fault Refusal

/-- The machine right after a module reset: every register at the Reset column of its table, every store empty. [log 5: DESIGN CHOICE] -/
def State.reset : State := { pending := [], dev := {} }

/-- A command's effect on the module, as an answer that keeps the queue. [log 1: DESIGN CHOICE] -/
def State.act (s : State) (f : Dev → Dev) : Answer := .next { s with dev := f s.dev }

end Sys2Proof.Machine
end

