-- ==== Sys2Proof/Machine/Ops.lean ====
section
/-! DEFINITION. The named operations every meaning is written over: register words and fields, counts, events, outputs,
free values and the few views of the module that many rules ask for. -/

namespace Sys2Proof.Machine

open Sys2Proof

/-! ## The register file (R7 to R11) -/

/-- The word of a register in force. -/
def Dev.reg (d : Dev) (addr : Nat) : Nat := (find d.regs.inForce addr).getD (resetWordAt addr)

/-- A field of a register in force. -/
def Dev.field (d : Dev) (addr lo w : Nat) : Nat := bitsOf (d.reg addr) lo w

/-- The word of a register placed in force; a word equal to the reset word is not listed. -/
def Dev.setReg (d : Dev) (addr v : Nat) : Dev :=
  let table := if v = resetWordAt addr then drop d.regs.inForce addr else put d.regs.inForce addr v
  { d with regs := { d.regs with inForce := table } }

/-- A field of a register placed in force. -/
def Dev.setField (d : Dev) (addr lo w v : Nat) : Dev := d.setReg addr (withBits (d.reg addr) lo w v)

/-- The RWS word last written to a register, forgotten: reads return the word in force again. -/
def Dev.forgetWritten (d : Dev) (addr : Nat) : Dev :=
  { d with regs := { d.regs with written := drop d.regs.written addr } }

/-- A 32-bit count register raised, stopping at 2^32 - 1. [log 73: DESIGN CHOICE] -/
def Dev.count (d : Dev) (addr : Nat) (n : Nat := 1) : Dev := d.setReg addr (satAdd max32 (d.reg addr) n)

/-- A total register of a width raised, wrapping (R466). [log 73: DESIGN CHOICE] -/
def Dev.total (d : Dev) (addr w n : Nat) : Dev := d.setReg addr ((d.reg addr + n) % 2 ^ w)

/-! ## Outputs and free values -/

/-- Something sent to the outside. -/
def Dev.emit (d : Dev) (o : Output) : Dev := { d with out := o :: d.out }

/-- A fresh random byte string. [log 8: DESIGN CHOICE] -/
def Dev.draw (d : Dev) (n : Nat) : Bytes × Dev := (padTo n (Config.random d.draws n), { d with draws := d.draws + 1 })

/-- The instant of a command noted. [log 7: DEDUCED; log 115: DESIGN CHOICE] -/
def Dev.clock (d : Dev) (now : Nat) : Dev := { d with now := now }

/-! ## Views -/

/-- Breath number in force (R34, R42). -/
def Dev.breath (d : Dev) : Nat := d.grid.breath

/-- The module's slot: 0 = A, 1 = B; slot A until the pin is read. -/
def Dev.slot (d : Dev) : Nat := d.startUp.slot.getD 0

/-- The partner is standby-ready (R381). [log 89: DEDUCED] -/
def Dev.standbyReady (d : Dev) : Bool := decide (d.peer.state = .standbyReady)

/-- The module serves: PHASE is 6 (R486), and no save has disabled its ports and stopped admission (R436). -/
def Dev.serving (d : Dev) : Bool := d.startUp.phase == 6 && d.power.saving.isNone

/-- A command of a part that a save stops: nothing is started and nothing written into the persistent region while it runs (R436). -/
def State.running (s : State) (f : Dev → Dev) : Answer := s.act fun d => if d.power.saving.isSome then d else f d

/-- This module owns a set (R29). -/
def Dev.ownsSet (d : Dev) (n : Nat) : Bool := match find d.stripes.sets n with
  | some t => t.owner == d.slot
  | none => false

/-- Bitmap of the sets owned here. -/
def Dev.owned (d : Dev) : Nat := bitmap 16 d.ownsSet

/-- One period of the grid in ps: the integer quotient (R32). -/
def Dev.period (d : Dev) : Nat := d.reg RegisterMap.brg / max 1 (d.reg (RegisterMap.brg + 8))

/-- Microseconds, milliseconds and seconds in ps. -/
def us : Nat := 1000000
/-- One millisecond in ps. -/
def ms : Nat := 1000000000
/-- One second in ps. -/
def sec : Nat := 1000000000000

/-! ## Events (R478 to R484) -/

namespace Cls
/-- Event classes (R478). -/
def port : Nat := 1
/-- DRIVE. -/
def drive : Nat := 2
/-- SET. -/
def set : Nat := 3
/-- POWER. -/
def power : Nat := 4
/-- CONTROL. -/
def control : Nat := 5
/-- TIME. -/
def time : Nat := 6
/-- QUEUE. -/
def queue : Nat := 7
/-- SECURITY. -/
def security : Nat := 8
end Cls

/-- Whether a class is posted to a client: its CTL_EVENT_MASK bit; CONTROL cannot be masked (R482). -/
def Dev.hears (d : Dev) (client cls : Nat) : Bool := cls == Cls.control || bitOf (d.reg 0x314) (8 * client + cls - 1)

/-- A record put into one client's history, which keeps the last 4,096 (R482); one that leaves undelivered is lost to
delivery and counted (R484). [log 102: DEDUCED] -/
def EventClient.add (c : EventClient) (e : EventRecord) : EventClient :=
  let oldest := c.posted - c.history.length
  let leaves := decide (c.history.length ≥ 4096) && decide (c.delivered ≤ oldest)
  { c with
    posted := c.posted + 1
    history := (e :: c.history).take 4096
    delivered := if leaves then oldest + 1 else c.delivered
    lost := if leaves then c.lost + 1 else c.lost
    firstLost := if leaves && c.lost == 0 then oldest else c.firstLost }

/-- One client of the events. -/
def Dev.client (d : Dev) (c : Nat) : EventClient := (find d.events c).getD {}

/-- A record posted to one client, where its mask lets it. -/
def Dev.deliverTo (d : Dev) (e : EventRecord) (c : Nat) : Dev :=
  if d.hears c e.cls then
    let old := d.client c
    let new := old.add e
    let d := if new.lost > old.lost then d.count 0x318 else d
    { d with events := put d.events c new }
  else d

/-- A record handed to the management port's mirror (R498). -/
def Dev.mirror (d : Dev) (e : EventRecord) : Dev :=
  if d.field 0x500 0 2 == 3 && (d.reg 0x520 != 0 || d.reg 0x528 != 0) && d.field 0x500 16 16 != 0 then
    { d with mgmt := { d.mgmt with queue := d.mgmt.queue ++ [e] } }
  else d

/-- An event posted to the clients named. -/
def Dev.postAmong (d : Dev) (clients : List Nat) (cls code unit : Nat) (data : List Item) : Dev :=
  let e : EventRecord := { cls := cls, code := code, unit := unit % 2 ^ 16, breath := d.breath, data := data }
  let heard := clients.filter fun c => d.hears c cls
  if heard.isEmpty then d else (heard.foldl (fun d c => d.deliverTo e c) d).mirror e

/-- An event posted to every client (R482). -/
def Dev.post (d : Dev) (cls code unit : Nat) (data : List Item) : Dev := d.postAmong [0, 1, 2, 3] cls code unit data

/-- An event posted to its one named recipient. -/
def Dev.postTo (d : Dev) (client cls code unit : Nat) (data : List Item) : Dev := d.postAmong [client] cls code unit data

/-- An item of one byte. -/
def b1 (v : Nat) : Item := (1, v % 2 ^ 8)
/-- An item of four bytes. -/
def b4 (v : Nat) : Item := (4, v % 2 ^ 32)
/-- An item of eight bytes. -/
def b8 (v : Nat) : Item := (8, v % 2 ^ 64)
/-- A signed item of eight bytes. -/
def i8 (v : Int) : Item := (8, unsignedOf v 64)
/-- A signed item of four bytes. -/
def i4 (v : Int) : Item := (4, unsignedOf v 32)
/-- An IP address. -/
def b16 (v : Nat) : Item := (16, v % 2 ^ 128)

/-- The 32 bytes of an event record (R478, R479). -/
def EventRecord.bytes (e : EventRecord) : Bytes :=
  padTo 32 (leBytes 1 e.cls ++ leBytes 1 e.code ++ leBytes 2 e.unit ++ leBytes 8 e.breath ++
    (e.data.map fun i => if i.1 = 16 then beBytes 16 i.2 else leBytes i.1 i.2).flatten)

/-- REG_UNLISTED for a field of a register (R10, R481). [log 17: DEDUCED] -/
def Dev.unlisted (d : Dev) (addr lo value : Nat) : Dev :=
  d.post Cls.control 0xA0 (addr / 2 ^ 20) [b4 (addr % 2 ^ 20), b1 lo, b8 value]

/-! ## Changing the parts of the module -/

/-- The stripe engine changed. -/
def Dev.onStripes (d : Dev) (f : Stripes → Stripes) : Dev := { d with stripes := f d.stripes }
/-- One set changed. -/
def Dev.onSet (d : Dev) (n : Nat) (f : StripeSet → StripeSet) : Dev :=
  d.onStripes fun x => { x with sets := alter x.sets n f }
/-- One bay of the drive port complex. -/
def Dev.bay (d : Dev) (n : Nat) : Bay := (find d.bays n).getD {}
/-- One bay changed. -/
def Dev.onBay (d : Dev) (n : Nat) (f : Bay → Bay) : Dev := { d with bays := put d.bays n (f (d.bay n)) }
/-- One bay's power channels. -/
def Dev.channel (d : Dev) (n : Nat) : BayChannel := (find d.power.bays n).getD {}
/-- One bay's power channels changed. -/
def Dev.onChannel (d : Dev) (n : Nat) (f : BayChannel → BayChannel) : Dev :=
  { d with power := { d.power with bays := put d.power.bays n (f (d.channel n)) } }
/-- The power subsystem changed. -/
def Dev.onPower (d : Dev) (f : Power → Power) : Dev := { d with power := f d.power }
/-- The partner's view changed. -/
def Dev.onPeer (d : Dev) (f : Peer → Peer) : Dev := { d with peer := f d.peer }
/-- Trust changed. -/
def Dev.onTrust (d : Dev) (f : Trust → Trust) : Dev := { d with trust := f d.trust }
/-- The grid changed. -/
def Dev.onGrid (d : Dev) (f : Grid → Grid) : Dev := { d with grid := f d.grid }
/-- The front end changed. -/
def Dev.onFront (d : Dev) (f : Front → Front) : Dev := { d with front := f d.front }
/-- The control path changed. -/
def Dev.onControl (d : Dev) (f : Control → Control) : Dev := { d with control := f d.control }
/-- The endpoint changed. -/
def Dev.onEndpoint (d : Dev) (f : Endpoint → Endpoint) : Dev := { d with endpoint := f d.endpoint }
/-- Transport changed. -/
def Dev.onTransport (d : Dev) (f : Transport → Transport) : Dev := { d with transport := f d.transport }
/-- Regions and windows changed. -/
def Dev.onMemory (d : Dev) (f : Memory → Memory) : Dev := { d with memory := f d.memory }
/-- The switch changed. -/
def Dev.onSwitch (d : Dev) (f : Switch → Switch) : Dev := { d with switch := f d.switch }
/-- The chanters changed. -/
def Dev.onChanters (d : Dev) (f : Chanters → Chanters) : Dev := { d with chanters := f d.chanters }
/-- The cipher engine changed. -/
def Dev.onCipher (d : Dev) (f : Cipher → Cipher) : Dev := { d with cipher := f d.cipher }
/-- The counters changed. -/
def Dev.onCounters (d : Dev) (f : Counters → Counters) : Dev := { d with counters := f d.counters }
/-- Start-up changed. -/
def Dev.onStart (d : Dev) (f : StartUp → StartUp) : Dev := { d with startUp := f d.startUp }
/-- One window changed. -/
def Dev.onWindow (d : Dev) (w : Nat) (f : Window → Window) : Dev :=
  d.onMemory fun m => { m with windows := alter m.windows w f }
/-- One namespace changed. -/
def Dev.onNs (d : Dev) (n : Nat) (f : Namespace → Namespace) : Dev :=
  d.onStripes fun x => { x with namespaces := alter x.namespaces n f }
/-- One SA changed. -/
def Dev.onSa (d : Dev) (n : Nat) (f : Sa → Sa) : Dev := d.onTransport fun t => { t with sas := alter t.sas n f }
/-- One port's state beside its registers. -/
def Dev.port (d : Dev) (n : Nat) : Port := (find d.transport.ports n).getD {}
/-- One port changed. -/
def Dev.onPort (d : Dev) (n : Nat) (f : Port → Port) : Dev :=
  d.onTransport fun t => { t with ports := put t.ports n (f (d.port n)) }

/-- A change made only where a condition holds. -/
def Dev.when (d : Dev) (b : Bool) (f : Dev → Dev) : Dev := if b then f d else d

end Sys2Proof.Machine
end

