-- ==== Sys2Proof/Machine/Bindings.lean ====
section
/-! DEFINITION. Programs and bindings: what runs for a target under the generation in force (R27, R179, R183, R184). -/

namespace Sys2Proof.Machine

open Sys2Proof

/-- Key of an opcode's binding of a namespace. -/
def commandBinding (nsid op : Nat) : Nat := nsid * 4 + op
/-- Key of a window's binding. -/
def windowBinding (w : Nat) : Nat := 2 ^ 20 + w

/-- Kinds of a library program; `none` = no library program. -/
def libraryKinds : Nat → Option Nat
  | 1 | 2 | 3 => some 1
  | 0x10 => some 6
  | _ => none

/-! Parts of a manifest (R373). -/

/-- The 96 bytes that describe the part of a TYPE. -/
def partOf (m : Bytes) (type : Nat) : Option Bytes :=
  ((List.range 6).map fun k => slice m (64 + 96 * k) 96).find? fun p => byteAt p 0 == type

/-- LENGTH of a part. -/
def partLength (m : Bytes) (type : Nat) : Nat := ((partOf m type).map fun p => leAt p 8 4).getD 0
/-- VERSION of a part. -/
def partVersion (m : Bytes) (type : Nat) : Nat := ((partOf m type).map fun p => leAt p 4 4).getD 0
/-- DIGEST of a part. -/
def partDigest (m : Bytes) (type : Nat) : Bytes := ((partOf m type).map fun p => slice p 16 64).getD (zeros 64)
/-- The manifest whose library and bore table are in force: the staged one from step 1 of R377 on. -/
def Trust.inForce (t : Trust) : Bytes := if t.stage = .activating then t.manifest else t.running

/-- Digest of the library in force. -/
def Dev.library (d : Dev) : Bytes := partDigest d.trust.inForce 3

/-- CHA_LIB_VERSION: VERSION of the library part in force. -/
def Dev.libVersion (d : Dev) : Nat := partVersion d.trust.inForce 3

/-- A program of the library (R179). -/
def Dev.libraryProgram (d : Dev) (n : Nat) : Option Program := (libraryKinds n).map fun k => {
  version := Config.libraryVersion d.library n, entry := 0, scratch := Config.libraryScratch d.library n, kinds := k
  code := Config.libraryCode d.library n }

/-- A program the module holds. -/
def Dev.program (d : Dev) (n : Nat) : Option Program := if n < 0x1000 then d.libraryProgram n else find d.chanters.programs n

/-- The program that runs for a target, with its binding: `library` is the identifier it runs where nothing is bound. -/
def Dev.bindingOf (d : Dev) (key library : Nat) : Nat × Binding :=
  match find d.chanters.bindings key with
  | some b => (if b.prog = 0 then library else b.prog, b)
  | none => (library, { prog := 0, limit := 256, param := zeros 32 })

/-- What runs for a target now: taken when its work is admitted, and kept by that work (R27, R184). -/
def Dev.boundTo (d : Dev) (key library : Nat) : Bound :=
  let (prog, b) := d.bindingOf key library
  let p := (d.program prog).getD { version := 0, entry := 0, scratch := 0, kinds := 0, code := [] }
  { prog := prog, version := p.version, entry := p.entry, scratch := p.scratch, codeWords := p.code.length, limit := b.limit, param := b.param }

end Sys2Proof.Machine
end

