-- ==== Sys2Proof/Machine/Mirroring.lean ====
section
/-! DEFINITION. What a standby-ready partner is sent: the state of a set after each change that is mirrored, and the installed
state after each change that is copied (R236, R333, R381, R393). -/

namespace Sys2Proof.Machine

open Sys2Proof

/-- A window without the contents of its slots. -/
def Window.settings (w : Window) : Window := { w with ring := [] }

/-- Namespaces on a set. -/
def Stripes.spacesOf (x : Stripes) (set : Nat) : Table Namespace := x.namespaces.filter fun n => n.2.set == set

/-- The state of a set that the partner's mirror share holds. [log 87: DESIGN CHOICE] -/
def Dev.setImage (d : Dev) (n : Nat) : Option SetImage := (find d.stripes.sets n).map fun t =>
  let spaces := d.stripes.spacesOf n
  { set := t, spaces := spaces, records := d.stripes.records.filter fun r => r.2.set == n, seals := d.stripes.seals.filter fun s => s.set == n
    journal := d.stripes.journal.filter fun j => j.set == n, nextJseq := d.stripes.nextJseq
    forwarded := d.front.flight.filterMap fun f => f.2.origin.bind fun o =>
      if (find spaces (leAt f.2.entry 4 4)).isSome then some (o, d.slot * 2 ^ 63 + f.1 % 2 ^ 63) else none
    windows := (d.memory.windows.filter fun w => (find spaces w.2.nsid).isSome).map fun w => (w.1, w.2.settings) }

/-- A set's change mirrored to a standby-ready partner. [log 87: DESIGN CHOICE] -/
def Dev.mirrorSet (d : Dev) (n : Nat) : Dev :=
  if !d.standbyReady then d else match d.setImage n with
    | some x => d.emit (.peer (.mirror (.set n x)))
    | none => d

/-- The installed state that is copied to the partner. -/
def Dev.installed (d : Dev) : Installed := {
  gen := d.control.gen, sas := d.transport.sas, keys := d.cipher.keys, reeds := d.transport.reeds
  regions := d.memory.regions.filter fun r => match r.2.kind with
    | .window _ => true
    | .buffer => false
  cqs := d.front.cqs, programs := d.chanters.programs, bindings := d.chanters.bindings
  handbacks := d.peer.handbacks.filterMap fun h => if h.2.incoming then none else some (h.1, h.2.edge) }

/-- The installed state copied to a standby-ready partner. [log 87: DESIGN CHOICE] -/
def Dev.copyInstalled (d : Dev) : Dev := d.when d.standbyReady fun d => d.emit (.peer (.installed d.installed))

end Sys2Proof.Machine
end

