-- ==== Sys2Proof/Machine/Flags.lean ====
section
/-! DEFINITION. Completion statuses (R131) and the verdict a test gives: the status and RESULT of the first test that
fails. -/

namespace Sys2Proof.Machine

open Sys2Proof

namespace Status
/-- OK. -/
def ok : Nat := 0x00
/-- OK_ZERO_LENGTH. -/
def okZeroLength : Nat := 0x01
/-- ABORTED. -/
def aborted : Nat := 0x02
/-- INVALID_OPCODE. -/
def invalidOpcode : Nat := 0x10
/-- INVALID_FIELD. -/
def invalidField : Nat := 0x11
/-- OUT_OF_RANGE. -/
def outOfRange : Nat := 0x12
/-- REGION_REVOKED. -/
def regionRevoked : Nat := 0x13
/-- ACCESS_DENIED. -/
def accessDenied : Nat := 0x14
/-- ADMISSION_REFUSED. -/
def admissionRefused : Nat := 0x15
/-- TRANSFER_FAILED. -/
def transferFailed : Nat := 0x16
/-- CHECK_GUARD. -/
def checkGuard : Nat := 0x20
/-- CHECK_REF_TAG. -/
def checkRefTag : Nat := 0x21
/-- CHECK_APP_TAG. -/
def checkAppTag : Nat := 0x22
/-- MEDIA_UNREADABLE. -/
def mediaUnreadable : Nat := 0x30
/-- MEDIA_LOST. -/
def mediaLost : Nat := 0x31
/-- QUEUE_FENCED. -/
def queueFenced : Nat := 0x40
/-- NAMESPACE_FENCED. -/
def namespaceFenced : Nat := 0x41
/-- SET_EXPOSED. -/
def setExposed : Nat := 0x42
/-- TXN_CONFLICT. -/
def txnConflict : Nat := 0x50
/-- TXN_NOT_OPEN. -/
def txnNotOpen : Nat := 0x51
/-- UPDATE_REFUSED. -/
def updateRefused : Nat := 0x60
/-- DEADLINE_MISSED. -/
def deadlineMissed : Nat := 0x70
/-- CONTROL_FROZEN. -/
def controlFrozen : Nat := 0xFE
/-- UNIT_FENCED. -/
def unitFenced : Nat := 0xFF
end Status

/-- What a test finds: nothing, or the status and RESULT of the failure. -/
abbrev Verdict := Option (Nat × Nat)

/-- The first failure of two tests run in order. -/
def Verdict.andThen (a b : Verdict) : Verdict := match a with
  | some f => some f
  | none => b

/-- A failure with a status and a RESULT, where a condition does not hold. -/
def require (ok : Bool) (status result : Nat) : Verdict := if ok then none else some (status, result)

/-- Field tests in order: the byte offset of the first field whose condition fails gives INVALID_FIELD. -/
def fields : List (Nat × Bool) → Verdict
  | [] => none
  | (off, ok) :: t => if ok then fields t else some (Status.invalidField, off)

/-- RESULT for a failing field of a descriptor at a byte offset (R156). -/
def inDescriptor (off : Nat) : Nat := 0x8000000000000000 + off

/-- Field tests of a descriptor, in order. -/
def descriptorFields (l : List (Nat × Bool)) : Verdict := fields (l.map fun p => (inDescriptor p.1, p.2))

/-- A recorded or admitted command as its checks and its effect see it. -/
structure Rec where
  op : Nat
  entry : Bytes
  payload : Bytes
  /-- control client of its queue -/
  client : Nat
  /-- admission count -/
  seq : Nat
  deriving DecidableEq, Repr

/-- A failed recorded check on a named field: INVALID_FIELD with the byte offset. -/
def badField (off : Nat) : Verdict := some (Status.invalidField, off)

end Sys2Proof.Machine
end

