-- ==== Sys2Proof/Machine/Switching.lean ====
section
/-! DEFINITION. The switch core and the scheduler: cells, landing, spilling, refusal of host ingress, egress queues,
shapers and fair queueing, sampling and cell loss (R325 to R344). -/

namespace Sys2Proof.Machine

open Sys2Proof RegisterMap

/-! ## Cells and occupancy (R326, R329) -/

/-- Windway cells of a packet of `n` payload bytes. -/
def cellsOf (n : Nat) : Nat := max 1 ((n + 255) / 256)

/-- Windway cells that count against an egress queue's limit: those of a copy count here too (R332). -/
def EgressQueue.cells (q : EgressQueue) : Nat := q.packets.foldl (fun n p => if p.spilled then n else n + p.cells) 0

/-- Windway cells that an egress queue alone holds: a copy shares the cells of its landing, and is read back from the landed data after it
(R330, R332). -/
def EgressQueue.held (q : EgressQueue) : Nat := q.packets.foldl (fun n p => if p.spilled || p.landed then n else n + p.cells) 0

/-- Spilled bytes of an egress queue. -/
def EgressQueue.spilledBytes (q : EgressQueue) : Nat := q.packets.foldl (fun n p => if p.spilled then n + p.cells * 256 else n) 0

/-- Physical windway cells in use: packets that have not landed and packets queued; shared cells count once (R329). -/
def Dev.cellsUsed (d : Dev) : Nat :=
  d.switch.landing.foldl (fun n p => n + cellsOf p.data.length) 0 + d.switch.queues.foldl (fun n q => n + q.2.held) 0

/-- Bytes in the spill area. -/
def Dev.spillBytes (d : Dev) : Nat := d.switch.queues.foldl (fun n q => n + q.2.spilledBytes) 0

/-- Descriptors in use. -/
def Dev.descriptors (d : Dev) : Nat :=
  d.switch.landing.length + d.switch.queues.foldl (fun n q => n + q.2.packets.length) 0

/-- MiB of the staging area: 58 GiB (R20). -/
def stagingMib : Nat := 59392

/-- Bytes held by buffer regions and window slots (R90). -/
def Dev.regionBytes (d : Dev) : Nat :=
  d.memory.regions.foldl (fun n r => match r.2.life with
    | .released _ => n
    | _ => n + r.2.bytes) 0

/-- Free dynamic staging in MiB (R329). -/
def Dev.stagingFree (d : Dev) : Nat := stagingMib - (d.regionBytes + d.spillBytes + 2 ^ 20 - 1) / 2 ^ 20

/-- Refusal of host ingress judged again (R331): it starts at INPUT_STOP or below STOP_MIB. -/
def Dev.judgeIngress (d : Dev) : Dev :=
  if d.switch.refusing.isSome then d
  else if d.cellsUsed ≥ d.field (swc + 8) 40 20 then
    (d.onSwitch fun x => { x with refusing := some (0, d.now), refused := 0 }).post Cls.control 0x40 0 [b1 0]
  else if d.stagingFree < d.field (swc + 0x18) 0 16 then
    (d.onSwitch fun x => { x with refusing := some (1, d.now), refused := 0 }).post Cls.control 0x40 0 [b1 1]
  else d

/-- SWC_INPUT_RESUMED: refusal ends once staging and windway are past their resume levels (R329). -/
def execSwcInputResumed (now : Nat) (s : State) : Answer := s.act fun d =>
  let d := d.clock now
  match d.switch.refusing with
  | some (_, since) =>
    if d.stagingFree ≥ d.field (swc + 0x18) 16 16 && decide (d.cellsUsed + 16384 < d.field (swc + 8) 40 20) then
      let n := d.switch.refused
      (d.onSwitch fun x => { x with refusing := none, refused := 0 }).post Cls.control 0x41 0 [b8 ((now - since) / us), b4 n]
    else d
  | none => d

/-- All 8 slices are fenced: the module admits and sends no packet (R343). -/
def Dev.slicesOut (d : Dev) : Bool := d.switch.slicesFenced.length ≥ 8

/-! ## Scheduling nodes (R336 to R339) -/

/-- Key of an egress queue. -/
def queueKey (point service sa : Nat) : Nat := (point * 8 + service) * 2 ^ 15 + sa

/-- Key of the node that shapes and weighs a queue: the SA for services 2 to 7, the queue itself for 0 and 1. -/
def EgressQueue.node (q : EgressQueue) : Nat :=
  if q.service ≥ 2 then q.sa else 2 ^ 40 + queueKey q.point q.service q.sa

/-- Key of a service's node. -/
def serviceNode (point service : Nat) : Nat := 2 ^ 20 + 8 * point + service
/-- Key of a port's node. -/
def portNode (point : Nat) : Nat := 2 ^ 21 + point

/-- A node; one never set holds the settings of R337. -/
def Dev.node (d : Dev) (k : Nat) : Node := (find d.switch.nodes k).getD {}
/-- A node changed. [log 109: DEDUCED] -/
def Dev.onNode (d : Dev) (k : Nat) (f : Node → Node) : Dev :=
  d.onSwitch fun x => { x with nodes := put x.nodes k (f (d.node k)) }

/-- Token bucket of a node in millionths of a bit. -/
def Node.bucket (n : Node) : Nat := n.burst * 1024 * 8 * 1000000

/-- Tokens accrued up to an instant: RATE Mb/s in RATE mode; none in QUOTA mode, at RATE 0 or when unlimited (R338). -/
def Node.accrue (n : Node) (now : Nat) : Node :=
  if n.unlimited || n.quota || n.rate = 0 then { n with filledAt := now }
  else { n with tokens := min n.bucket (n.tokens + n.rate * (now - n.filledAt)), filledAt := now }

/-- Cost of a packet of `len` wire bytes. -/
def wireCost (len : Nat) : Nat := len * 8 * 1000000

/-- A node's shaper allows a packet of `len` wire bytes (R338). -/
def Node.allows (n : Node) (len : Nat) : Bool := n.unlimited || (n.rate != 0 && decide (wireCost len ≤ n.tokens))

/-- A packet's length taken from a shaper. -/
def Node.spend (n : Node) (len : Nat) : Node := if n.unlimited then n else { n with tokens := n.tokens - wireCost len }

/-- Wire bytes of a frame: its bytes, the FCS, preamble and gap (R338). -/
def wireBytes (bytes : Bytes) : Nat := bytes.length + 24

/-- Service of an SA's data traffic (R336). -/
def Dev.dataService (d : Dev) (sa : Nat) : Nat := (d.node sa).service

/-- Windway cells a queue may hold: each of an SA's queues takes its subscriber's setting; service 0 is not configurable (R329, R336, R337). -/
def Dev.queueLimit (d : Dev) (q : EgressQueue) : Nat :=
  let own := if q.service = 0 then 0 else (d.node q.sa).queueCells
  if own = 0 then d.field (swc + 0x10) 0 17 else own

/-- KiB a queue may have in the spill area. -/
def Dev.spillLimit (d : Dev) (q : EgressQueue) : Nat := if q.service = 0 then 65536 else (d.node q.sa).spillKib

/-! ## Spilling (R330) -/

/-- Cells beyond the first `limit` of a queue marked as spilled, in queue order. [log 110: DESIGN CHOICE] -/
def spillBeyond (limit : Nat) : Nat → List QueuedPacket → List QueuedPacket
  | _, [] => []
  | used, p :: t =>
    if p.spilled || p.landed then p :: spillBeyond limit used t
    else if used + p.cells > limit then { p with spilled := true } :: spillBeyond limit used t
    else p :: spillBeyond limit (used + p.cells) t

/-- The queue with the most windway cells. [log 110: DESIGN CHOICE] -/
def Dev.longestQueue (d : Dev) : Option (Nat × EgressQueue) :=
  d.switch.queues.foldl (fun best q => match best with
    | some b => if q.2.held > b.2.held then some q else best
    | none => some q) none

/-- Spilled packets past `limit` bytes of the spill area dropped whole, with their number (R330). -/
def dropPast (limit : Nat) : Nat → List QueuedPacket → List QueuedPacket × Nat
  | _, [] => ([], 0)
  | used, p :: t =>
    if !p.spilled then let (l, n) := dropPast limit used t; (p :: l, n)
    else if used + p.cells * 256 > limit then let (l, n) := dropPast limit used t; (l, n + 1)
    else let (l, n) := dropPast limit (used + p.cells * 256) t; (p :: l, n)

/-- Above VENT_ON, the longest queues spill all but their first 64 cells until occupancy is below VENT_OFF. [log 110: DESIGN CHOICE] -/
def Dev.relieve (d : Dev) : Nat → Dev
  | 0 => d
  | fuel + 1 =>
    if d.cellsUsed < d.field (swc + 8) 20 20 then d.onSwitch fun x => { x with spilling := false } else
    match d.longestQueue with
    | some (k, q) =>
      let (kept, n) := dropPast (d.spillLimit q * 1024) 0 (spillBeyond 64 0 q.packets)
      let d := d.onSwitch fun x => { x with spilling := true }
      if kept = q.packets then d else
      let d := if n = 0 then d else d.count (swc + 0x24) n
      Dev.relieve (d.onSwitch fun x => { x with
        queues := if kept.isEmpty then drop x.queues k else put x.queues k { q with packets := kept } }) fuel
    | none => d

/-- Spilling where occupancy has risen above VENT_ON and not yet fallen below VENT_OFF, and refusal of ingress judged. [log 110: DESIGN CHOICE] -/
def Dev.balance (d : Dev) : Dev :=
  let d := if d.switch.spilling || decide (d.cellsUsed > d.field (swc + 8) 0 20) then d.relieve (d.switch.queues.length + 1) else d
  d.judgeIngress

/-- A port is up, not fenced, and not disabled by a save (R436); PL is up while the pair key is agreed. [log 111: DEDUCED] -/
def Dev.pointUp (d : Dev) (point : Nat) : Bool :=
  if point = 260 then d.peer.linkUp && d.peer.pairKey.isSome
  else (d.port point).up && !(d.port point).fenced && d.power.saving.isNone

/-- A packet of the module's own put in an egress queue; `shared` = a copy that shares its cells with its landing. Nothing is queued for a port that is down (R335) or with every
slice fenced (R343); a packet past SPILL_KIB is dropped whole at the tail (R330). -/
def Dev.transmit (d : Dev) (point service sa payload : Nat) (bytes : Bytes) (shared : Bool := false) : Dev :=
  if !d.pointUp point || d.slicesOut then d else
  let k := queueKey point service sa
  let q := (find d.switch.queues k).getD { point := point, service := service, sa := sa, packets := [] }
  let p : QueuedPacket := { bytes := bytes, cells := cellsOf payload, queuedAt := d.now, spilled := false, landed := shared }
  let behind := q.packets.any fun x => x.spilled
  let full := !shared && (behind || decide (q.cells + p.cells > d.queueLimit q))
  if full && decide (q.spilledBytes + p.cells * 256 > d.spillLimit q * 1024) then d.count (swc + 0x24)
  else
    let q := { q with packets := q.packets ++ [{ p with spilled := full }] }
    (d.onSwitch fun x => { x with queues := put x.queues k q }).balance

/-- SPILL_RETURN: a queue whose windway cells are below half its limit draws its spilled cells back in queue order. -/
def returnSpilled (limit : Nat) : Nat → List QueuedPacket → List QueuedPacket
  | _, [] => []
  | used, p :: t =>
    if p.spilled then
      if used + p.cells ≤ limit then { p with spilled := false } :: returnSpilled limit (used + p.cells) t else p :: t
    else p :: returnSpilled limit used t

/-- SPILL_RETURN. [log 110: DESIGN CHOICE] -/
def execSpillReturn (queue : Nat) (s : State) : Answer := s.act fun d =>
  match find d.switch.queues queue with
  | some q =>
    if 2 * q.cells < d.queueLimit q then
      let q := { q with packets := returnSpilled (d.queueLimit q) q.cells q.packets }
      d.onSwitch fun x => { x with queues := put x.queues queue q }
    else d
  | none => d

/-! ## Fair queueing (R339) -/

/-- Comparison of tags by signed difference modulo 2^64. -/
def tagBefore (a b : Nat) : Bool := decide (signedOf (unsignedOf ((a : Int) - b) 64) 64 < 0)

/-- The later of two tags. -/
def tagMax (a b : Nat) : Nat := if tagBefore a b then b else a

/-- A child of a scheduling node on offer: its key, its index for ties, and its head packet's wire length. -/
structure Child where
  key : Nat
  index : Nat
  len : Nat
  deriving DecidableEq, Repr

/-- The wake-up rule for a node's children: those on offer enter with `S := max(F, V)`; those not on offer leave. -/
def Dev.wake (d : Dev) (parent : Nat) (all : List Nat) (offered : List Child) : Dev :=
  all.foldl (fun d k =>
    let n := d.node k
    if offered.any fun c => c.key = k then
      if n.entered then d else d.onNode k fun n => { n with start := tagMax n.finish (d.node parent).virtual, entered := true }
    else if n.entered then d.onNode k fun n => { n with entered := false } else d) d

/-- The child on offer with the smallest start tag; ties go to the lower index. -/
def Dev.smallest (d : Dev) (l : List Child) : Option Child :=
  l.foldl (fun best c => match best with
    | some b => if tagBefore (d.node c.key).start (d.node b.key).start then some c else best
    | none => some c) none

/-- The tags after a child has sent `len` wire bytes. -/
def Dev.charge (d : Dev) (parent child len : Nat) : Dev :=
  let s := (d.node child).start
  let d := d.onNode parent fun n => { n with virtual := s }
  d.onNode child fun n =>
    let f := (s + len * 65536 / max 1 n.weight) % 2 ^ 64
    { n with finish := f, start := f }

/-- Queues of one service of an egress point, in order of SA. -/
def Dev.queuesOf (d : Dev) (point service : Nat) : List EgressQueue :=
  d.switch.queues.filterMap fun q => if q.2.point = point && q.2.service = service && !q.2.packets.isEmpty then some q.2 else none

/-- Wire length of a queue's head packet; a packet whose cells are spilled waits for them. -/
def EgressQueue.head (q : EgressQueue) : Option Nat := match q.packets with
  | p :: _ => if p.spilled then none else some (wireBytes p.bytes)
  | [] => none

/-- Subscribers of a service that may send now. -/
def Dev.offers (d : Dev) (point service : Nat) : List Child :=
  (d.queuesOf point service).filterMap fun q => match q.head with
    | some len => if (d.node q.node).allows len then some { key := q.node, index := q.sa, len := len } else none
    | none => none

/-- The subscriber a service sends from next, after the wake-up rule. -/
def Dev.pickSubscriber (d : Dev) (point service : Nat) : Dev × Option Child :=
  let offers := d.offers point service
  let d := d.wake (serviceNode point service) ((d.queuesOf point service).map EgressQueue.node) offers
  (d, d.smallest offers)

/-- The head packet of a queue sent. -/
def Dev.sendHead (d : Dev) (point service : Nat) (c : Child) : Dev :=
  let k := queueKey point service c.index
  match find d.switch.queues k with
  | some q =>
    match q.packets with
    | p :: t =>
      let d := d.onSwitch fun x => { x with queues := if t.isEmpty then drop x.queues k else put x.queues k { q with packets := t } }
      let d := d.onNode c.key fun n => n.spend c.len
      let d := d.onNode (serviceNode point service) fun n => n.spend c.len
      let d := d.onNode (portNode point) fun n => n.spend c.len
      let d := d.total (hpc + 0x102C + 0x40 * point) 32 1
      d.emit (.frame point p.bytes)
    | [] => d
  | none => d

/-- The services 2 to 7 that may send now, each with the subscriber it would send from. -/
def Dev.serviceOffers (d : Dev) (point : Nat) : Dev × List (Child × Nat × Child) :=
  [2, 3, 4, 5, 6, 7].foldl (fun (d, l) v =>
    let (d, c) := d.pickSubscriber point v
    match c with
    | some c =>
      if (d.node (serviceNode point v)).allows c.len && (d.node (portNode point)).allows c.len then
        (d, l ++ [({ key := serviceNode point v, index := v, len := c.len }, v, c)])
      else (d, l)
    | none => (d, l)) (d, [])

/-- Tokens of every node accrued up to an instant. -/
def Dev.accrueAll (d : Dev) : Dev := d.onSwitch fun x => { x with nodes := mapValues x.nodes fun _ n => n.accrue d.now }

/-- EGRESS_SEND: the egress point is free and sends one packet: service 0, then 1, strictly, then the fair share. -/
def execEgressSend (point now : Nat) (s : State) : Answer := s.act fun d =>
  let d := (d.clock now).accrueAll
  if !d.pointUp point || d.slicesOut || point ≥ 260 then d else
  let (d, control) := d.pickSubscriber point 0
  match control with
  | some c => (d.sendHead point 0 c).charge (serviceNode point 0) c.key c.len
  | none =>
    let (d, replica) := d.pickSubscriber point 1
    let ready := match replica with
      | some c => (d.node (serviceNode point 1)).allows c.len && (d.node (portNode point)).allows c.len
      | none => false
    match replica, ready with
    | some c, true => (d.sendHead point 1 c).charge (serviceNode point 1) c.key c.len
    | _, _ =>
      let (d, offers) := d.serviceOffers point
      let d := d.wake (portNode point) ([2, 3, 4, 5, 6, 7].map (serviceNode point)) (offers.map fun o => o.1)
      match d.smallest (offers.map fun o => o.1) with
      | some v =>
        match offers.find? fun o => o.1 == v with
        | some (_, n, c) =>
          ((d.sendHead point n c).charge (serviceNode point n) c.key c.len).charge (portNode point) v.key c.len
        | none => d
      | none => d

/-- Step 8 of an edge: tokens of every QUOTA node set to its BURST; one held closed or unlimited keeps its tokens (R338). -/
def Dev.renewQuotas (d : Dev) : Dev :=
  d.onSwitch fun x => { x with nodes := mapValues x.nodes fun _ n =>
    if n.quota && !n.unlimited && n.rate != 0 then { n with tokens := n.bucket } else n }

/-! ## SCHED_SET (R337) -/

/-- Line rate of an egress point in Mb/s, from its PORT_CFG (R83). -/
def Dev.lineRate (d : Dev) (point : Nat) : Nat :=
  if point ≥ 256 then 400000 else match d.field (hpc + 0x1000 + 0x40 * point) 1 2 with
    | 0 => 50000
    | 1 => 25000
    | _ => 10000

/-- Checks of SCHED_SET. [log 109: DEDUCED] -/
def checkSchedSet (r : Rec) (d : Dev) : Verdict :=
  let level := byteAt r.entry 8
  let point := leAt r.entry 10 2
  let index := leAt r.entry 12 4
  let p := r.payload
  let unlimited := bitOf (byteAt p 4) 0
  let rate := leAt p 0 4
  let top := if level = 2 then d.lineRate point else 400000
  let cells := leAt p 16 4
  (fields [(8, decide (level ≤ 2)), (10, if level = 0 then point == 0 else decide (point ≤ 259)),
    (12, match level with
      | 0 => decide (index < 16384)
      | 1 => decide (1 ≤ index) && decide (index ≤ 7)
      | _ => index == 0)]).andThen
  (descriptorFields [
    (0, unlimited || (bitOf (byteAt p 4) 1) || decide (rate ≤ top)),
    (4, byteAt p 4 < 8), (5, if level = 0 then decide (2 ≤ byteAt p 5) && decide (byteAt p 5 ≤ 7) else byteAt p 5 == 0),
    (6, zeroRange p 6 7),
    (8, decide (1 ≤ leAt p 8 4) && decide (leAt p 8 4 ≤ 1048576)),
    (12, decide (1 ≤ leAt p 12 4) && decide (leAt p 12 4 ≤ 65535)),
    (16, if level = 0 then cells == 0 || (decide (64 ≤ cells) && decide (cells ≤ 65536)) else cells == 0),
    (20, if level = 0 then decide (leAt p 20 4 ≤ 4194304) else leAt p 20 4 == 0),
    (24, zeroRange p 24 63)])

/-- Effect of SCHED_SET: the settings of one node; tokens carry over up to the new bucket, and a change of mode to QUOTA fills it (R338).
[log 109: DEDUCED] -/
def applySchedSet (r : Rec) (d : Dev) : Dev × Nat :=
  let level := byteAt r.entry 8
  let point := leAt r.entry 10 2
  let index := leAt r.entry 12 4
  let p := r.payload
  let key := match level with
    | 0 => index
    | 1 => serviceNode point index
    | _ => portNode point
  let d := d.onNode key fun n =>
    let was := n.quota
    let n := n.accrue d.now
    let n := { n with
      rate := leAt p 0 4, unlimited := bitOf (byteAt p 4) 0, quota := bitOf (byteAt p 4) 1, sample := bitOf (byteAt p 4) 2,
      burst := leAt p 8 4, weight := leAt p 12 4 }
    let n := if level = 0 then { n with service := byteAt p 5, queueCells := leAt p 16 4, spillKib := leAt p 20 4 } else n
    { n with tokens := if n.quota && !was then n.bucket else min n.bucket n.tokens }
  (d, 0)

/-! ## Port-down flush (R335) -/

/-- Every queue of an egress point discarded. -/
def Dev.flushPoint (d : Dev) (point : Nat) : Dev :=
  let gone := d.switch.queues.filter fun q => q.2.point == point
  let packets := gone.foldl (fun n q => n + q.2.packets.length) 0
  let bytes := gone.foldl (fun n q => q.2.packets.foldl (fun n p => n + p.bytes.length) n) 0
  let d := d.onSwitch fun x => { x with queues := x.queues.filter fun q => q.2.point != point }
  let d := d.count (swc + 0x100 + 4 * point) packets
  d.post Cls.port 0x06 point [b4 packets, b8 bytes]

/-! ## Sampling (R342) -/

/-- A region key (R87). [log 58: DEDUCED] -/
def regionKey (index gen : Nat) : Nat := index * 256 + gen

/-- A current buffer region by key. -/
def Dev.bufferRegion (d : Dev) (key : Nat) : Option (Nat × Region) :=
  let i := key / 256
  match find d.memory.regions i with
  | some r => match r.kind, r.life with
    | .buffer, .held => if i ≠ 0 && r.gen == key % 256 then some (i, r) else none
    | _, _ => none
  | none => none

/-- Bytes written into a buffer region. -/
def Dev.writeRegion (d : Dev) (i off : Nat) (b : Bytes) : Dev :=
  d.onMemory fun m => { m with regions := alter m.regions i fun r => { r with mem := writeBytes r.mem off b } }

/-- One sample record dropped. [log 70: DEDUCED] -/
def Dev.dropSample (d : Dev) : Dev :=
  (d.count (sch + 0x10)).onSwitch fun x => { x with sampleDrops := x.sampleDrops + 1 }

/-- One sample record of a queue written to the ring that SCH_SAMPLE_REGION names. [log 70: DEDUCED] -/
def Dev.sample (d : Dev) (q : EgressQueue) : Dev :=
  let key := d.reg (sch + 8)
  if key / 256 = 0 then d else
  match d.bufferRegion key with
  | none => d.dropSample
  | some (i, r) =>
    let cap := r.length / 32
    if cap = 0 || d.switch.samplesWritten ≥ 1000000 then d.dropSample else
    let n := (d.node q.node).accrue d.now
    let age := match q.packets with
      | [] => 0
      | p :: _ => max 1 (min max32 ((d.now - p.queuedAt) / 10000))
    let tokens := if n.unlimited then 0x7FFFFFFF else n.tokens / (8192 * 1000000)
    let rec32 := leBytes 4 d.breath ++ leBytes 4 ((d.now - d.grid.lastEdge) / 1000) ++ leBytes 1 0 ++ leBytes 1 q.service ++
      leBytes 2 q.point ++ leBytes 4 q.sa ++ leBytes 4 q.cells ++ leBytes 4 (q.spilledBytes / 1024) ++ leBytes 4 age ++ leBytes 4 tokens
    let at0 := d.reg (sch + 0x0C)
    let d := d.writeRegion i (at0 % cap * 32) rec32
    let d := d.setReg (sch + 0x0C) ((at0 + 1) % cap)
    d.onSwitch fun x => { x with samplesWritten := x.samplesWritten + 1 }

/-- Queues whose subscriber, service or port node is sampled. [log 70: DEDUCED] -/
def Dev.sampledQueues (d : Dev) : List EgressQueue :=
  d.switch.queues.filterMap fun q =>
    if (d.node q.2.node).sample || (d.node (serviceNode q.2.point q.2.service)).sample || (d.node (portNode q.2.point)).sample
    then some q.2 else none

/-- Every sampled queue written once. [log 70: DEDUCED] -/
def Dev.sampleAll (d : Dev) : Dev := d.sampledQueues.foldl Dev.sample d

/-- SCH_SAMPLE: the interval of mode 0 expires, or a queue has risen through THRESH_CELLS in mode 2. -/
def execSchSample (now : Nat) (s : State) : Answer := s.act fun d =>
  let d := d.clock now
  let cfg := d.reg sch
  if !bitOf cfg 0 then d else match bitsOf cfg 1 2 with
    | 0 => d.sampleAll
    | 2 => (d.sampledQueues.filter fun q => decide (q.cells > bitsOf cfg 32 17)).foldl Dev.sample d
    | _ => d

/-- SCH_SAMPLE_DROP_SUMMARY: once per second. -/
def execSchSampleDropSummary (s : State) : Answer := s.act fun d =>
  let n := d.switch.sampleDrops
  let d := d.onSwitch fun x => { x with sampleDrops := 0, samplesWritten := 0 }
  if n = 0 then d else d.post Cls.control 0x44 0 [b4 n]

/-! ## Cell loss (R343) -/

/-- SWC_CELL_LOST: the losses of the last second: target kind, target, offset of the first, count. -/
def execSwcCellLost (s : State) : Answer := s.act fun d =>
  match d.switch.cellLoss with
  | some (kind, target, off, n) =>
    (d.onSwitch fun x => { x with cellLoss := none }).post Cls.control 0x42 0 [b1 kind, b4 target, b8 off, b4 n]
  | none => d

/-- A lost cell noted for the report. -/
def Dev.noteCellLoss (d : Dev) (kind target off : Nat) : Dev :=
  let d := d.count (swc + 0x2C)
  d.onSwitch fun x => match x.cellLoss with
    | some (k, t, o, n) => { x with cellLoss := some (k, t, o, n + 1) }
    | none => { x with cellLoss := some (kind, target, off, 1) }

/-- An uncorrectable error in a slice's datapath: the slice is fenced and the others carry its cells. -/
def Dev.fenceSlice (d : Dev) (n : Nat) (lost : Nat) : Dev :=
  if d.switch.slicesFenced.contains n then d else
    (d.onSwitch fun x => { x with slicesFenced := n :: x.slicesFenced }).post Cls.control 0x43 n [b1 n, b4 lost]

end Sys2Proof.Machine
end

