-- ==== Sys2Proof/Machine/Sending.lean ====
section
/-! DEFINITION. Building frames and sending Cuchail messages (R55 to R58, R63 to R69, R79, R242). -/

namespace Sys2Proof.Machine

open Sys2Proof RegisterMap

/-! ## Frames (R55) -/

/-- Offset of a per-port HPC register. -/
def hpcPort (port off : Nat) : Nat := hpc + 0x1000 + port * 0x40 + off

/-- An address is IPv4 in IPv4-mapped IPv6 form. -/
def isV4 (addr : Nat) : Bool := addr / 2 ^ 32 == 0xFFFF

/-- The one's complement sum of the 16-bit words of a byte string. -/
def wordSum : Bytes → Nat
  | [] => 0
  | [a] => a.toNat * 256
  | a :: b :: t => a.toNat * 256 + b.toNat + wordSum t

/-- The Internet checksum of a byte string. -/
def checksum (b : Bytes) : Nat :=
  let fold (s : Nat) : Nat := s % 65536 + s / 65536
  65535 - fold (fold (fold (wordSum b)))

/-- The pseudo-header of a UDP datagram. -/
def pseudoHeader (src dst len : Nat) (v4 : Bool) : Bytes :=
  if v4 then beBytes 4 src ++ beBytes 4 dst ++ beBytes 2 17 ++ beBytes 2 len
  else beBytes 16 src ++ beBytes 16 dst ++ beBytes 4 len ++ beBytes 4 17

/-- A UDP datagram with its checksum; a checksum of 0 is sent as 65535. -/
def udpDatagram (src dst : Nat) (v4 : Bool) (sport dport : Nat) (payload : Bytes) : Bytes :=
  let len := 8 + payload.length
  let head (c : Nat) : Bytes := beBytes 2 sport ++ beBytes 2 dport ++ beBytes 2 len ++ beBytes 2 c
  let c := checksum (pseudoHeader src dst len v4 ++ head 0 ++ payload)
  head (if c = 0 then 65535 else c) ++ payload

/-- An IP packet with one payload. -/
def ipPacket (src dst proto : Nat) (v4 : Bool) (payload : Bytes) : Bytes :=
  if v4 then
    let head (c : Nat) : Bytes :=
      beBytes 1 0x45 ++ beBytes 1 (Config.ipField 1) ++ beBytes 2 (20 + payload.length) ++ beBytes 2 (Config.ipField 2) ++
        beBytes 2 0x4000 ++ beBytes 1 (Config.ipField 0) ++ beBytes 1 proto ++ beBytes 2 c ++ beBytes 4 src ++ beBytes 4 dst
    head (checksum (head 0)) ++ payload
  else
    beBytes 4 (6 * 2 ^ 28 + Config.ipField 1 % 256 * 2 ^ 20) ++ beBytes 2 payload.length ++ beBytes 1 proto ++
      beBytes 1 (Config.ipField 0) ++ beBytes 16 src ++ beBytes 16 dst ++ payload

/-- The VLAN tag a port sends, where VLAN_EN is set. -/
def Dev.vlanTag (d : Dev) (port : Nat) : Bytes :=
  if port < 260 && d.field (hpcPort port 0) 5 1 == 1 then beBytes 2 0x8100 ++ beBytes 2 (d.field (hpcPort port 0) 6 12) else []

/-- An Ethernet frame out of a port to a neighbour. -/
def Dev.etherFrame (d : Dev) (port mac ethertype : Nat) (payload : Bytes) : Bytes :=
  beBytes 6 mac ++ beBytes 6 (Config.portMac port) ++ d.vlanTag port ++ beBytes 2 ethertype ++ payload

/-- A UDP datagram to an address, framed for a port. [log 111: DEDUCED] -/
def Dev.udpFrame (d : Dev) (port addr sport dport : Nat) (payload : Bytes) : Bytes :=
  let v4 := isV4 addr
  let src := if v4 then Config.portAddress4 port else Config.portAddress port
  let dst := if v4 then addr % 2 ^ 32 else addr
  d.etherFrame port (Config.neighbourMac addr) (if v4 then 0x0800 else 0x86DD)
    (ipPacket src dst 17 v4 (udpDatagram src dst v4 sport dport payload))

/-! ## Cuchail packets (R56, R57, R63) -/

/-- A Cuchail header. -/
structure Header where
  type : Nat
  flags : Nat
  sa : Nat
  endpoint : Nat
  msgId : Nat
  pktIndex : Nat
  pktCount : Nat
  target : Nat
  offset : Nat
  breathLo : Nat
  deriving DecidableEq, Repr

/-- The 32 bytes of a header, big-endian, VER = 1. -/
def Header.bytes (h : Header) : Bytes :=
  beBytes 1 (16 + h.type) ++ beBytes 1 h.flags ++ beBytes 2 h.sa ++ beBytes 4 h.endpoint ++ beBytes 4 h.msgId ++
    beBytes 2 h.pktIndex ++ beBytes 2 h.pktCount ++ beBytes 4 h.target ++ beBytes 8 h.offset ++ beBytes 4 h.breathLo

/-- The header that 32 bytes spell. -/
def Header.parse (b : Bytes) : Header :=
  { type := byteAt b 0 % 16, flags := byteAt b 1, sa := beNat (slice b 2 2), endpoint := beNat (slice b 4 4), msgId := beNat (slice b 8 4),
    pktIndex := beNat (slice b 12 2), pktCount := beNat (slice b 14 2), target := beNat (slice b 16 4), offset := beNat (slice b 20 8),
    breathLo := beNat (slice b 28 4) }

/-- The GCM nonce of a packet (R242). -/
def packetNonce (salt : Bytes) (h : Header) : Bytes :=
  padTo 4 salt ++ beBytes 4 h.msgId ++ beBytes 2 h.pktIndex ++ [0] ++ beBytes 1 (h.flags % 8)

/-- The keys of a key slot. -/
def Sa.slotOf (s : Sa) (phase : Nat) : Option SaKeys := if phase = 0 then s.slot0 else s.slot1

/-! ## Sending (R64, R65, R68, R81) -/

/-- The egress point of a route: PRIMARY while it is up, else ALTERNATE (R396). [log 111: DEDUCED] -/
def Dev.routeOf (d : Dev) (shelf : Nat) : Option Nat :=
  let r := d.reg (0x600 + 8 * shelf)
  if !bitOf r 4 then none
  else
    let primary := 256 + bitsOf r 0 2
    let alternate := 256 + bitsOf r 2 2
    if d.pointUp primary then some primary else if d.pointUp alternate then some alternate else none

/-- One packet of a message encrypted and queued for its egress point: service 0 for control types, 1 for loop copies, and
the SA's data service for the rest (R336). [log 111: DEDUCED] -/
def Dev.sendPacket (d : Dev) (m : OutMessage) (i : Nat) : Dev :=
  match find d.transport.sas m.sa with
  | none => d
  | some sa =>
    match sa.slotOf sa.phase, m.packets[i]? with
    | some keys, some (off, label, payload) =>
      let tries := m.tries.getD i 0
      let downstream := match m.purpose with
        | .downstream _ _ => true
        | _ => false
      let h : Header := {
        type := m.type, flags := tries % 8 + 128 * sa.phase, sa := m.sa, endpoint := Config.endpoint, msgId := m.msgId, pktIndex := i
        pktCount := m.packets.length, target := m.target, offset := off, breathLo := (if downstream then label else d.breath) % 2 ^ 32 }
      let (cipher, tag) := Gcm.encrypt keys.txKey (packetNonce keys.txSalt h) h.bytes payload
      let service := if downstream then 1 else if m.type = 0 || m.type = 1 || m.type = 2 then d.dataService m.sa else 0
      let point := if downstream then (d.routeOf (d.field 0x210 8 6)).getD sa.port else sa.port
      let sport := 49152 + Config.udpSourceHash m.sa m.target % 16384
      let d := d.transmit point service m.sa payload.length
        (d.udpFrame point sa.addr sport (d.field hpc 0 16) (h.bytes ++ cipher ++ tag)) downstream
      d.onTransport fun t => { t with sent := alter t.sent (m.sa * 2 ^ 32 + m.msgId) fun m =>
        { m with tries := m.tries.set i (tries + 1) } }
    | _, _ => d

/-- Messages counted on a sequence of an SA: SA_REKEY_DUE at 2^31, EXPIRED at 2^32 - 2^24 (R81). -/
def Dev.noteMessages (d : Dev) (sa rx tx : Nat) : Dev :=
  match find d.transport.sas sa with
  | none => d
  | some s =>
    let s' := { s with rxMessages := s.rxMessages + rx, txMessages := s.txMessages + tx }
    let n := max s'.rxMessages s'.txMessages
    let due := decide (n ≥ 2 ^ 31) && !s.rekeyDue
    let gone := decide (n ≥ 2 ^ 32 - 2 ^ 24) && decide (s.state = .active)
    let d := d.onSa sa fun _ => { s' with rekeyDue := s.rekeyDue || due, state := if gone then .expired else s.state }
    let d := if due then d.post Cls.security 0x03 sa [b4 n] else d
    if gone then d.post Cls.security 0x04 sa [] else d

/-- The SA may send anything but REPLY. -/
def Dev.saActive (d : Dev) (sa : Nat) : Bool := match find d.transport.sas sa with
  | some s => decide (s.state = .active) && s.pendingSlot.all fun p => p.2.2
  | none => false

/-- Every packet of a message that has not been transmitted yet is sent, where the SA may send. -/
def Dev.sendWaiting (d : Dev) (key : Nat) : Dev :=
  match find d.transport.sent key with
  | none => d
  | some m =>
    if !d.saActive m.sa then d else
    (List.range m.packets.length).foldl (fun d i => if m.tries.getD i 0 = 0 then d.sendPacket m i else d) d

/-- A message numbered, kept until it is acknowledged, and sent; its MSG_ID. -/
def Dev.openMessage (d : Dev) (sa type target : Nat) (packets : List (Nat × Nat × Bytes)) (purpose : MessageFor) : Nat × Dev :=
  match find d.transport.sas sa with
  | none => (0, d)
  | some s =>
    let id := s.nextMsg
    let d := d.onSa sa fun s => { s with nextMsg := (s.nextMsg + 1) % 2 ^ 32 }
    let m : OutMessage := {
      sa := sa, msgId := id, type := type, target := target, packets := packets, acked := 0
      tries := List.replicate packets.length 0, purpose := purpose }
    let d := d.onTransport fun t => { t with sent := put t.sent (sa * 2 ^ 32 + id) m }
    (id, (d.noteMessages sa 0 1).sendWaiting (sa * 2 ^ 32 + id))

/-- An ACK or NACK message: numbered and sent once, never kept (R65). -/
def Dev.sendOnce (d : Dev) (sa type : Nat) (payload : Bytes) : Dev :=
  if !d.saActive sa then d else
  let (id, d) := d.openMessage sa type 0 [(0, 0, payload)] (.event 0 0)
  d.onTransport fun t => { t with sent := drop t.sent (sa * 2 ^ 32 + id) }

/-- Data cut into packets of 8,192 bytes from a first OFFSET, up to 64 packets a message. -/
def packetsOf (first label : Nat) (data : Bytes) : List (List (Nat × Nat × Bytes)) :=
  let l := chunks 8192 data
  let all := ((List.range l.length).zip l).map fun p => (first + 8192 * p.1, label, p.2)
  (List.range ((all.length + 63) / 64)).map fun i => (all.drop (64 * i)).take 64

/-- Data sent in as many messages as it takes (R58). -/
def Dev.sendData (d : Dev) (sa type target first label : Nat) (data : Bytes) (purpose : MessageFor) : Dev :=
  (packetsOf first label data).foldl (fun d p => (d.openMessage sa type target p purpose).2) d

/-! ## Acknowledgements (R65, R67) -/

/-- The replay filter entry of a message. -/
def Dev.replayEntry (d : Dev) (sa msg : Nat) : Option ReplayEntry :=
  d.transport.replay.find? fun e => e.sa == sa && e.msgId == msg

/-- Packets of a message that may be acknowledged: the admitted ones, but for those whose ACK waits for their landing or for the
partner's copy (R66, R106). -/
def Dev.ackable (d : Dev) (e : ReplayEntry) : Nat :=
  bitmap 64 fun i => bitOf e.bitmap i &&
    !(d.memory.plCopies.any fun c => c.sa == e.sa && c.msgId == e.msgId && c.pktIndex == i) &&
    !(d.switch.landing.any fun p => p.ack.isSome && p.sa == e.sa && p.msgId == e.msgId && p.pktIndex == i)

/-- An ACK entry: MSG_ID, DONE and the bitmap of admitted packets; none while it would name no packet. -/
def Dev.ackEntry (d : Dev) (e : ReplayEntry) : Option Bytes :=
  let m := d.ackable e
  let done := m % 2 ^ e.pktCount == 2 ^ e.pktCount - 1
  if m = 0 then none else some (beBytes 4 e.msgId ++ beBytes 1 (flag done) ++ zeros 3 ++ beBytes 8 m)

/-- A NACK entry: MSG_ID, PKT_INDEX, REASON and DETAIL. -/
def nackEntry (n : Nat × Nat × Nat × Nat) : Bytes :=
  beBytes 4 n.1 ++ beBytes 2 n.2.1 ++ beBytes 1 n.2.2.1 ++ zeros 1 ++ beBytes 8 n.2.2.2

/-- The ACK message due on an SA, and with it the NACK message due. -/
def Dev.sendAcks (d : Dev) (sa : Nat) : Dev :=
  match find d.transport.sas sa with
  | none => d
  | some s =>
    if !d.saActive sa then d else
    let due := s.ackDue.eraseDups
    let now := due.take 512
    let acks := now.filterMap fun m => (d.replayEntry sa m).bind d.ackEntry
    let nacks := s.nackDue.eraseDups.take 512
    let d := d.onTransport fun t => { t with
      replay := t.replay.map fun e => if e.sa = sa && now.contains e.msgId then { e with acked := Nat.lor e.acked (d.ackable e) } else e }
    let d := d.onSa sa fun s => { s with ackDue := due.drop 512, nackDue := s.nackDue.eraseDups.drop 512, unacked := 0 }
    let d := if acks.isEmpty then d else d.sendOnce sa 5 acks.flatten
    if nacks.isEmpty then d else d.sendOnce sa 6 (nacks.map nackEntry).flatten

/-- A packet admitted on an SA: its message's ACK is due, and sent at ACK_COUNT or at once for ACK_NOW (R65). -/
def Dev.admitted (d : Dev) (sa msg : Nat) (atOnce : Bool) : Dev :=
  let d := d.onSa sa fun s => { s with ackDue := s.ackDue ++ [msg], unacked := s.unacked + 1 }
  match find d.transport.sas sa with
  | some s => if atOnce || decide (s.unacked ≥ d.field hpc 40 7) then d.sendAcks sa else d
  | none => d

/-- An ACK of a message scheduled again (R70). -/
def Dev.ackAgain (d : Dev) (sa msg : Nat) : Dev :=
  d.onSa sa fun s => { s with ackDue := if s.ackDue.contains msg then s.ackDue else s.ackDue ++ [msg] }

/-- A NACK due on an SA, with the ACK entry of the same message. -/
def Dev.nack (d : Dev) (sa msg pkt reason detail : Nat) (atOnce : Bool) : Dev :=
  let d := (d.onSa sa fun s => { s with nackDue := s.nackDue ++ [(msg, pkt, reason, detail)] }).ackAgain sa msg
  if atOnce then d.sendAcks sa else d

/-! ## Landing (R327, R328) -/

/-- Bytes written into a slot of a window's ring. [log 59: DEDUCED] -/
def Window.land (w : Window) (slot offset : Nat) (data checks : Bytes) : Window :=
  { w with ring := alter w.ring slot fun t =>
      { t with data := writeBytes t.data offset data, checks := writeBytes t.checks (offset / 4096 * 16) checks } }

/-- One packet landed. [log 59: DEDUCED] -/
def Dev.land (d : Dev) (p : LandingPacket) : Dev :=
  let d := match p.place with
    | .region i => d.onMemory fun m =>
        { m with regions := alter m.regions i fun r => { r with mem := writeBytes r.mem p.offset p.data } }
    | .slot w k => d.onWindow w fun x => x.land k p.offset p.data p.checks
    | .queue q =>
      let entries := (List.range (p.data.length / 64)).map fun i => (p.sa, slice p.data (64 * i) 64)
      d.onFront fun f => { f with sqs := alter f.sqs q fun x => { x with waiting := x.waiting ++ entries } }
  match p.ack with
  | some now => d.admitted p.sa p.msgId now
  | none => d

/-- The packet that lands next: window cells with the earliest breath label first, then the others as they arrived. [log 112: DEDUCED] -/
def nextLanding (l : List LandingPacket) : Option LandingPacket :=
  let slots := l.filter fun p => match p.place with
    | .slot _ _ => true
    | _ => false
  match slots with
  | [] => l.head?
  | h :: t => some (t.foldl (fun b p => if p.breath < b.breath then p else b) h)

/-- `n` packets landed. [log 112: DEDUCED] -/
def Dev.landMany (d : Dev) : Nat → Dev
  | 0 => d
  | n + 1 => match nextLanding d.switch.landing with
    | some p => Dev.landMany ((d.onSwitch fun x => { x with landing := x.landing.erase p }).land p) n
    | none => d

/-- LANDING: `count` packets land while bell gives write credit. [log 112: DEDUCED] -/
def execLanding (count : Nat) (s : State) : Answer := s.act fun d => d.landMany count

end Sys2Proof.Machine
end

