-- ==== Sys2Proof/Machine/HostReads.lean ====
section
/-! DEFINITION. Non-posted reads of host memory: tags, the limit on those outstanding, and where a READ's or WRITE's data lies
on the host (R134, R135, R455, R456). -/

namespace Sys2Proof.Machine

open Sys2Proof RegisterMap

/-- The module may issue requests to the host: BME is set and the function is in D0. [log 104: PRESUMED] -/
def Dev.busMaster (d : Dev) : Bool := d.field (pep + 4) 8 1 == 1 && d.field (pep + 4) 9 1 == 0

/-- Reads outstanding at once. -/
def readLimit : Nat := 768

/-- The lowest tag that is neither outstanding nor in quarantine. [log 41: DEDUCED] -/
def Endpoint.freeTag (e : Endpoint) : Nat :=
  ((List.range (readLimit + e.quarantined.length)).find? fun t => (find e.reads t).isNone && !e.quarantined.contains t).getD 0

/-- A read of host memory issued, or waiting for a tag. [log 41: DEDUCED] -/
def Dev.hostRead (d : Dev) (p : ReadPurpose) (addr len : Nat) : Dev :=
  if d.endpoint.reads.length ≥ readLimit then d.onEndpoint fun e => { e with waitingReads := e.waitingReads ++ [(p, addr, len)] }
  else
    let t := d.endpoint.freeTag
    (d.onEndpoint fun e => { e with reads := put e.reads t p }).emit (.hostRead t addr len)

/-- A tag is free again: the oldest waiting read is issued. [log 41: DEDUCED] -/
def Dev.nextRead (d : Dev) : Dev := match d.endpoint.waitingReads with
  | (p, a, n) :: t =>
    if d.endpoint.reads.length < readLimit && d.busMaster then (d.onEndpoint fun e => { e with waitingReads := t }).hostRead p a n else d
  | [] => d

/-- The parts of the bytes `off … off + len - 1` of a buffer that some ranges make up: offset in the buffer, bus address, length. [log 41: DEDUCED] -/
def rangesIn (off len : Nat) : Nat → List (Nat × Nat) → List (Nat × Nat × Nat)
  | _, [] => []
  | start, (a, n) :: t =>
    let lo := max off start
    let hi := min (off + len) (start + n)
    (if lo < hi then [(lo, a + (lo - start), hi - lo)] else []) ++ rangesIn off len (start + n) t

/-- A posted write into host memory. -/
def Dev.hostWrite (d : Dev) (addr : Nat) (b : Bytes) : Dev := if b.isEmpty then d else d.emit (.hostWrite addr b)

end Sys2Proof.Machine
end

