-- ==== Sys2Proof/Machine/Posting.lean ====
section
/-! DEFINITION. Producing completions: rings, overflow chains, fenced-queue records, RESPONSE messages and MSI-X
(R113 to R115, R123 to R127, R148, R449, R450). -/

namespace Sys2Proof.Machine

open Sys2Proof RegisterMap

/-! ## MSI-X (R449, R450, R456) -/

/-- A vector and the function are both unmasked. -/
def Endpoint.open (e : Endpoint) (v : Nat) : Bool := e.unmasked.contains v && !e.functionMasked

/-- A message of a vector falls due: pended while masked, merged inside its IRQ_GAP, else sent. -/
def Dev.interrupt (d : Dev) (v : Nat) : Dev :=
  let add (l : List Nat) : List Nat := if l.contains v then l else l ++ [v]
  if !d.endpoint.open v || !d.busMaster then d.onEndpoint fun e => { e with pendingVectors := add e.pendingVectors }
  else if d.endpoint.gapRunning.contains v then d.onEndpoint fun e => { e with gapDue := add e.gapDue }
  else
    let d := d.emit (.interrupt v)
    if d.field (pep + 8) 20 12 = 0 then d else d.onEndpoint fun e => { e with gapRunning := add e.gapRunning }

/-! ## Entries (R113) -/

/-- The 32 bytes of a completion entry with an OWN bit. -/
def Completion.bytes (c : Completion) (own : Bool) : Bytes := match c with
  | .command tag sqid head status seq result lo =>
    leBytes 2 tag ++ leBytes 2 sqid ++ leBytes 2 head ++ leBytes 1 status ++ [0] ++ leBytes 8 seq ++ leBytes 8 result ++
      leBytes 4 lo ++ zeros 3 ++ leBytes 1 (128 * flag own)
  | .breath summary window status lo committed missing bad short count =>
    leBytes 2 window ++ zeros 4 ++ leBytes 1 status ++ leBytes 1 (if summary then 2 else 1) ++ leBytes 4 lo ++
      leBytes 3 committed ++ leBytes 3 missing ++ leBytes 3 bad ++ leBytes 1 (flag short) ++ leBytes 4 count ++ zeros 5 ++
      leBytes 1 (128 * flag own)

/-- The entry is a breath completion of a window. -/
def Completion.ofWindow (c : Completion) (w : Nat) : Bool := match c with
  | .breath _ window _ _ _ _ _ _ _ => window == w
  | _ => false

/-- The entry belongs to an I/O command. -/
def Completion.ofIo (c : Completion) : Bool := match c with
  | .command _ sqid _ _ _ _ _ => sqid != 0
  | _ => false

/-! ## Merging (R125) -/

/-- 2^24 - 1, where the block sums of a KIND 2 entry stop. -/
def sumMax : Nat := 2 ^ 24 - 1

/-- A new KIND 1 completion merged into a KIND 1 entry, where R125 lets it. -/
def mergeEqual (old new : Completion) : Option Completion := match old, new with
  | .breath false w 0 lo c 0 0 false n, .breath false w' 0 lo' c' 0 0 false _ =>
    if w = w' ∧ c = c' ∧ lo' = (lo + n) % 2 ^ 32 ∧ n < 2 ^ 32 - 1 then some (.breath false w 0 lo c 0 0 false (n + 1)) else none
  | _, _ => none

/-- A completion merged into a KIND 2 entry. -/
def mergeSummary (old new : Completion) : Completion := match old, new with
  | .breath true w st lo c m b s n, .breath _ _ st' _ c' m' b' s' _ =>
    .breath true w (if st = 0 then st' else st) lo (satAdd sumMax c c') (satAdd sumMax m m') (satAdd sumMax b b') (s || s')
      (satAdd max32 n 1)
  | _, _ => old

/-- A KIND 1 completion as the first of a KIND 2 entry. -/
def startSummary : Completion → Completion
  | .breath _ w st lo c m b s n => .breath true w st lo c m b s n
  | c => c

/-- The newest entry that a test accepts, changed. -/
def changeNewest (p : Completion → Bool) (f : Completion → Completion) (l : List Completion) : List Completion :=
  let rec go : List Completion → List Completion
    | [] => []
    | x :: t => if p x then f x :: t else x :: go t
  (go l.reverse).reverse

/-- The window of a breath completion. -/
def Completion.window? : Completion → Option Nat
  | .breath _ w _ _ _ _ _ _ _ => some w
  | _ => none

/-- The entry is of KIND 2. -/
def Completion.isSummary : Completion → Bool
  | .breath s _ _ _ _ _ _ _ _ => s
  | _ => false

/-- A completion added to a chain or record under R125; `true` = a KIND 2 entry was opened. [log 126: DEDUCED] -/
def addMerged (l : List Completion) (c : Completion) : List Completion × Bool :=
  match c.window? with
  | none => (l ++ [c], false)
  | some w =>
    if l.any fun x => x.ofWindow w && x.isSummary then
      (changeNewest (fun x => x.ofWindow w && x.isSummary) (fun x => mergeSummary x c) l, false)
    else match (l.reverse.find? fun x => x.ofWindow w).bind fun x => mergeEqual x c with
      | some x => (changeNewest (fun y => y.ofWindow w) (fun _ => x) l, false)
      | none =>
        if (l.filter fun x => x.ofWindow w).length ≥ 1024 then (l ++ [startSummary c], true) else (l ++ [c], false)

/-! ## Queues -/

/-- Key of the mouthpiece queues of a client. -/
def mouthpiece (client : Nat) : Nat := 32768 + client

/-- A key names a mouthpiece queue. -/
def isMouthpiece (key : Nat) : Bool := decide (32768 ≤ key) && decide (key < 32772)

/-- Key of the partner's forwarded commands. -/
def forwardedKey : Nat := 40000

/-- The number a queue carries in entries and events: 0 for a mouthpiece. -/
def queueNumber (key : Nat) : Nat := if isMouthpiece key then 0 else key

/-- One completion queue changed. -/
def Dev.onCq (d : Dev) (key : Nat) (f : Cq → Cq) : Dev := d.onFront fun x => { x with cqs := alter x.cqs key f }

/-- One submission queue changed. -/
def Dev.onSq (d : Dev) (key : Nat) (f : Sq → Sq) : Dev := d.onFront fun x => { x with sqs := alter x.sqs key f }

/-- Keys of the submission queues bound to a completion queue. -/
def Dev.sqsOf (d : Dev) (cq : Nat) : List Nat := d.front.sqs.filterMap fun s => if s.2.cq = cq then some s.1 else none

/-- Entries in the pool of overflow chains (R123). -/
def Dev.poolUsed (d : Dev) : Nat := d.front.cqs.foldl (fun n c => n + (c.2.chain.length - 64)) 0

/-- Entries of the record store that I/O commands hold or have reserved (R126). -/
def Dev.recordUsed (d : Dev) : Nat :=
  (d.front.flight.filter fun f => !isMouthpiece f.2.sq).length +
  d.front.cqs.foldl (fun n c => n + (c.2.chain.filter Completion.ofIo).length + (c.2.record.filter Completion.ofIo).length +
    (c.2.outstanding.filter Completion.ofIo).length) 0

/-- CMD_RECORD_FREE. -/
def Dev.recordFree (d : Dev) : Nat := 1046528 - d.recordUsed

/-- An entry of the store has been freed: RECORD_STORE_FULL may be posted again. -/
def Dev.recordFreed (d : Dev) : Dev :=
  d.onFront fun x => { x with storeFullPosted := x.storeFullPosted && d.recordFree == 0 }

/-- A queue event to the client that created the queue (R127). -/
def Dev.queueEvent (d : Dev) (client code unit : Nat) (data : List Item) : Dev := d.postTo client Cls.queue code unit data

/-! ## Fences (R122, R124) -/

/-- One SQ fenced, with QUEUE_FENCED. -/
def Dev.fenceSq (d : Dev) (key cause : Nat) : Dev :=
  match find d.front.sqs key with
  | some q =>
    if q.fenced then d else
    (d.onSq key fun q => { q with fenced := true }).queueEvent q.client 0x03 (queueNumber key) [b1 0, b1 cause, b4 q.head]
  | none => d

/-- A CQ fenced with every SQ bound to it: its chain becomes its record (R124). [log 33: DEDUCED] -/
def Dev.fenceCq (d : Dev) (key cause : Nat) : Dev :=
  match find d.front.cqs key with
  | some q =>
    if q.fenced then d else
    let d := d.onCq key fun q =>
      { q with fenced := true, stalled := false, record := q.record ++ q.outstanding ++ q.chain, chain := [], outstanding := [] }
    let d := (d.sqsOf key).foldl (fun d s => d.onSq s fun x => { x with fenced := true }) d
    d.queueEvent q.client 0x03 (queueNumber key) [b1 1, b1 cause, b4 q.tail]
  | none => d

/-! ## Posting (R114, R115, R123) -/

/-- An entry written into a HOST ring: bytes 0 to 30, then byte 31 with OWN = 1. [log 34: DESIGN CHOICE] -/
def Dev.writeRing (d : Dev) (key : Nat) (q : Cq) (c : Completion) : Dev :=
  let a := q.addr + 32 * q.tail
  let b := c.bytes true
  let d := (d.emit (.hostWrite a (b.take 31))).emit (.hostWrite (a + 31) (b.drop 31))
  d.onCq key fun q => { q with tail := (q.tail + 1) % max 1 q.entries, free := q.free - 1, stallStart := d.now }

/-- Fewer slots than this known to be free start a refresh of the count. [log 34: DESIGN CHOICE] -/
def scanBelow : Nat := 32

/-- A read of byte 31 of up to 64 slots ahead of the tail of a HOST CQ, not past the end of its ring, where few slots are known to be
free and no such read is on its way (R114). [log 34: DESIGN CHOICE] -/
def Dev.scanCq (d : Dev) (key : Nat) : Dev :=
  let onWay := (d.endpoint.reads.map Prod.snd ++ d.endpoint.waitingReads.map Prod.fst).any fun p => match p with
    | .scan k _ => k == key
    | _ => false
  match find d.front.cqs key with
  | some q =>
    if q.place ≠ .host || q.fenced || onWay || decide (q.free ≥ scanBelow) || !d.busMaster then d else
    let n := min 64 (q.entries - q.tail)
    d.hostRead (.scan key q.tail) (q.addr + 32 * q.tail + 31) (32 * (n - 1) + 1)
  | none => d

/-- Reads on their way whose purpose a test accepts are forgotten: what they bring counts for no queue. -/
def Dev.forgetReads (d : Dev) (old : ReadPurpose → Bool) : Dev :=
  let forget (p : ReadPurpose) : ReadPurpose := if old p then .scan 0 0 else p
  d.onEndpoint fun e => { e with
    reads := mapValues e.reads fun _ p => forget p
    waitingReads := e.waitingReads.map fun r => (forget r.1, r.2) }

/-- Refreshes on their way for a CQ whose ring starts again are forgotten. -/
def Dev.dropScans (d : Dev) (key : Nat) : Dev := d.forgetReads fun p => match p with
  | .scan k _ => k == key
  | _ => false

/-- A read on its way belongs to a poll of an SQ. -/
def ReadPurpose.polls (p : ReadPurpose) (key : Nat) : Bool := match p with
  | .poll k _ => k == key
  | .pollRest k _ _ => k == key
  | _ => false

/-- Polls on their way of an SQ whose ring starts again are forgotten. -/
def Dev.dropPolls (d : Dev) (key : Nat) : Dev := d.forgetReads fun p => p.polls key

/-- Entries written from the chain while slots are free. -/
def Dev.drainRing (d : Dev) (key : Nat) : Nat → Dev
  | 0 => d
  | n + 1 => match find d.front.cqs key with
    | some q => match q.chain with
      | c :: t =>
        if q.free = 0 || !d.busMaster then d else
          Dev.drainRing (((d.writeRing key q c).onCq key fun q => { q with chain := t }).scanCq key) key n
      | [] => d
    | none => d

/-- Journalled RESPONSEs that count as acknowledged from now on, told to the partner (R390). [log 37: DEDUCED] -/
def Dev.closeResponses (d : Dev) (p : SentResponse → Bool) : Dev :=
  let gone := d.peer.responses.filter p
  (gone.foldl (fun d r => d.emit (.peer (.mirror (.responded r.sa r.msgId)))) d).onPeer fun x => { x with
    responses := x.responses.filter fun r => !p r }

/-- A RESPONSE sent from the head of the chain where none is outstanding (R115), and journalled for the partner (R390). -/
def Dev.sendResponse (d : Dev) (key : Nat) : Dev :=
  match find d.front.cqs key with
  | some q =>
    if q.place ≠ .peer || !q.outstanding.isEmpty || q.peerFull || q.fenced || q.chain.isEmpty || !d.saActive q.sa then d else
    let l := q.chain.take 256
    let payload := (l.map fun c => c.bytes true).flatten
    let (id, d) := d.openMessage q.sa 4 q.peerCq [(0, 0, payload)] (.response key)
    let r : SentResponse := { sa := q.sa, msgId := id, cq := key, entries := l, firstSent := d.now }
    let d := d.closeResponses fun r => r.cq == key
    let d := d.when d.standbyReady fun d => (d.emit (.peer (.mirror (.response r)))).onPeer fun p => { p with responses := p.responses ++ [r] }
    d.onCq key fun q => { q with chain := q.chain.drop 256, outstanding := l, outstandingMsg := id, stallStart := d.now }
  | none => d

/-- A CQ whose chain has emptied resumes: QUEUE_RESUMED with the stall's length. -/
def Dev.resumeCq (d : Dev) (key : Nat) : Dev :=
  match find d.front.cqs key with
  | some q =>
    if q.stalled && q.chain.isEmpty then
      (d.onCq key fun q => { q with stalled := false }).queueEvent q.client 0x02 (queueNumber key) [b4 ((d.now - q.stallBegan) / us)]
    else d
  | none => d

/-- A CQ that is full with entries waiting stalls: QUEUE_STALLED with the SQs stopped, and the timer starts (R123, R124). -/
def Dev.stallCq (d : Dev) (key : Nat) : Dev :=
  match find d.front.cqs key with
  | some q =>
    if q.stalled || q.fenced || q.chain.isEmpty then d else
    (d.onCq key fun q => { q with stalled := true, stallStart := d.now, stallBegan := d.now }).queueEvent q.client 0x01 (queueNumber key)
      [b4 (d.sqsOf key).length]
  | none => d

/-- A chain drained as far as it goes, one batch; QUEUE_RESUMED when it empties (R123). [log 37: DEDUCED] -/
def Dev.drainChain (d : Dev) (key : Nat) : Dev :=
  match find d.front.cqs key with
  | some q =>
    if q.fenced then d else match q.place with
    | .peer => (d.sendResponse key).resumeCq key
    | _ =>
      let e := (d.drainRing key q.chain.length).scanCq key
      let posted := match find e.front.cqs key with
        | some q' => decide (q'.chain.length < q.chain.length)
        | none => false
      let e := if posted && q.irqEn then e.interrupt q.vector else e
      (e.resumeCq key).recordFreed
  | none => d

/-- A completion added to a list of a CQ, with QUEUE_RECORD_CLOSED where a KIND 2 entry opens. [log 34: DESIGN CHOICE] -/
def Dev.hold (d : Dev) (key : Nat) (c : Completion) (full : Nat) : Dev :=
  match find d.front.cqs key with
  | some q =>
    let (l, opened) := addMerged (if q.fenced then q.record else q.chain) c
    let d := d.onCq key fun q => if q.fenced then { q with record := l } else { q with chain := l }
    if opened then d.queueEvent q.client 0x04 (queueNumber key) [b4 (c.window?.getD 0), b8 full] else d
  | none => d

/-- A completion produced on a CQ: into its ring, its chain or its record. `full` is the whole breath number of a breath
completion. -/
def Dev.produce (d : Dev) (key : Nat) (c : Completion) (full : Nat := 0) : Dev :=
  match find d.front.cqs key with
  | none => d
  | some q =>
    if q.fenced then d.hold key c full
    else
      let overflows := decide (q.chain.length ≥ 64 + 4096) || (decide (q.chain.length ≥ 64) && decide (d.poolUsed ≥ 2 ^ 20))
      if overflows && !isMouthpiece key then (d.fenceCq key 2).hold key c full
      else
        let d := d.hold key c full
        match q.place with
        | .peer =>
          if q.peerFull then d.stallCq key else d.drainChain key
        | _ =>
          let d := if q.chain.isEmpty then d.drainChain key else d
          match find d.front.cqs key with
          | some q' => if q'.chain.isEmpty then d else d.stallCq key
          | none => d

/-! ## Commands complete (R145, R148) -/

/-- ADMIT_SEQ of an admission count. -/
def Dev.admitSeq (d : Dev) (n : Nat) : Nat := d.slot * 2 ^ 63 + n % 2 ^ 63

/-- A command in flight completes once, with the ADMIT_SEQ it reports; a forwarded one returns over PL. -/
def Dev.completeAs (d : Dev) (seq admitSeq status result : Nat) : Dev :=
  match find d.front.flight seq with
  | none => d
  | some f =>
    let d := d.onFront fun x => { x with flight := drop x.flight seq }
    match f.origin with
    | some o => d.emit (.peer (.forwardedDone o admitSeq status result))
    | none =>
      let q := find d.front.sqs f.sq
      let head := (q.map Sq.head).getD 0
      let cq := (q.map Sq.cq).getD f.sq
      d.produce cq (.command (leAt f.entry 2 2) (queueNumber f.sq) head status admitSeq (result % 2 ^ 64) (d.breath % 2 ^ 32))

/-- A command in flight completes with a status and RESULT. -/
def Dev.complete (d : Dev) (seq status result : Nat) : Dev := d.completeAs seq (d.admitSeq seq) status result

/-! ## Rows -/

/-- CHAIN_DRAIN: slots have become free, by CQ key. -/
def execChainDrain (cq now : Nat) (s : State) : Answer := s.act fun d => (d.clock now).drainChain cq

/-- STALL_LIMIT: the stall timer of a CQ has reached its limit; a mouthpiece CQ is never fenced (R121, R124). -/
def execStallLimit (cq now : Nat) (s : State) : Answer := s.act fun d =>
  let d := d.clock now
  match find d.front.cqs cq with
  | some q =>
    let limit := if q.stallMs = 0 then d.field (cmd + 0x18) 0 16 else q.stallMs
    if q.stalled && !isMouthpiece cq && decide (now ≥ q.stallStart + limit * ms) then d.fenceCq cq 1 else d
  | none => d

/-- RESPONSE_REOFFER: every 1 ms the held entries are offered again to a full PEER CQ under a new MSG_ID (R115). -/
def execResponseReoffer (cq : Nat) (s : State) : Answer := s.act fun d =>
  match find d.front.cqs cq with
  | some q =>
    if q.place = .peer ∧ q.peerFull ∧ q.fenced = false then
      (d.onCq cq fun q => { q with peerFull := false }).sendResponse cq
    else d
  | none => d

end Sys2Proof.Machine
end

