-- ==== Sys2Proof/Machine/Windows.lean ====
section
/-! DEFINITION. Regions and capture windows: region keys, slots and coverage, breath completions, deadlines, window states,
revocation and the copies at input (R87 to R108, R333). -/

namespace Sys2Proof.Machine

open Sys2Proof RegisterMap

/-! ## The region table (R87, R88, R90) -/

/-- Bytes of the staging area that regions and slots may hold: 29 GiB. -/
def regionLimit : Nat := 29 * 2 ^ 30

/-- A reed context names a region-table index. -/
def Dev.indexNamed (d : Dev) (i : Nat) : Bool := d.transport.reeds.any fun r => r.2.index == i && r.2.kind != ReedKind.queue

/-- An index may be issued (R88). [log 60: DESIGN CHOICE] -/
def Dev.indexEligible (d : Dev) (i : Nat) : Bool :=
  !d.indexNamed i && match find d.memory.regions i with
  | none => true
  | some r => match r.life with
    | .released since => decide (d.now ≥ since + sec)
    | _ => false

/-- The lowest index from `i` on, among `n`, that may be issued. [log 60: DESIGN CHOICE] -/
def Dev.eligibleFrom (d : Dev) (i : Nat) : Nat → Option Nat
  | 0 => none
  | n + 1 => if d.indexEligible i then some i else d.eligibleFrom (i + 1) n

/-- The lowest index that may be issued, in 1 to 65,535. [log 60: DESIGN CHOICE] -/
def Dev.nextIndex (d : Dev) : Option Nat := d.eligibleFrom 1 65535

/-- A region placed in the table under the lowest eligible index; its key. [log 60: DESIGN CHOICE] -/
def Dev.issueRegion (d : Dev) (kind : RegionKind) (length bytes : Nat) (mayWrite mayRead : Bool) (client : Nat) : Option (Nat × Dev) :=
  d.nextIndex.map fun i =>
    let gen := ((find d.memory.regions i).map Region.gen).getD 0
    let r : Region := {
      gen := gen, kind := kind, life := .held, length := length, bytes := bytes, mayWrite := mayWrite, mayRead := mayRead
      mem := [], client := client }
    (regionKey i gen, d.onMemory fun m => { m with regions := put m.regions i r })

/-- Current key of an index. -/
def Dev.currentKey (d : Dev) (i : Nat) : Nat := regionKey i (((find d.memory.regions i).map Region.gen).getD 0)

/-- Revocation at an edge: the generation rises and the index accepts no new work (R94). [log 61: DEDUCED] -/
def Dev.revoke (d : Dev) (i : Nat) (seq : Option Nat) : Dev :=
  d.onMemory fun m => { m with regions := alter m.regions i fun r => { r with gen := (r.gen + 1) % 256, life := .revoking seq } }

/-! ## Slots and coverage (R98 to R100) -/

/-- Cunits of a slot. -/
def Window.cunits (w : Window) : Nat := (w.slotBlocks + 15) / 16

/-- Blocks `lo … lo + n - 1` as a bitmap. -/
def blockRange (lo n : Nat) : Nat := (2 ^ n - 1) * 2 ^ lo

/-- The blocks of cunit `i` that lie within the slot. -/
def Window.cunitMask (w : Window) (i : Nat) : Nat := blockRange (16 * i) (min 16 (w.slotBlocks - 16 * i))

/-- 1 bits of a number, among its first `n`. -/
def ones (n v : Nat) : Nat := (List.range n).foldl (fun c i => c + v / 2 ^ i % 2) 0

/-- Ring slot of a breath. -/
def Window.slotOf (w : Window) (b : Nat) : Nat := b % w.slots

/-- The slot that holds the data of a breath. -/
def Window.slotFor (w : Window) (b : Nat) : Option Slot :=
  match find w.ring (w.slotOf b) with
  | some t => if t.breath = some b then some t else none
  | none => none

/-- Coverage bitmap of a breath. -/
def Window.coverage (w : Window) (b : Nat) : Nat := ((w.slotFor b).map Slot.covered).getD 0

/-- The slot is free for a breath (R98). -/
def Window.slotFree (w : Window) (b : Nat) : Bool :=
  match find w.ring (w.slotOf b) with
  | some t => t.breath == some b || !t.held
  | none => true

/-- A breath's slot taken into use for its first packet. -/
def Window.openSlot (w : Window) (b : Nat) : Window :=
  match w.slotFor b with
  | some _ => w
  | none =>
    let old := find w.ring (w.slotOf b)
    let t : Slot := {
      breath := some b, data := (old.map Slot.data).getD [], checks := (old.map Slot.checks).getD [], covered := 0
      read := 0, held := true }
    { w with ring := put w.ring (w.slotOf b) t }

/-- The slot of a breath changed. -/
def Window.onSlot (w : Window) (b : Nat) (f : Slot → Slot) : Window :=
  match w.slotFor b with
  | some t => { w with ring := put w.ring (w.slotOf b) (f t) }
  | none => w

/-- LBA(b) (R100). -/
def Window.lbaOf (w : Window) (b : Nat) : Nat :=
  w.baseLba + (if w.wrap then (b - w.firstBreath) % max 1 w.rangeBreaths else b - w.firstBreath) * w.slotBlocks

/-- One breath of a window. -/
def Window.breathOf (w : Window) (b : Nat) : WindowBreath := (find w.breaths b).getD {}

/-- One breath of a window changed. -/
def Window.onBreath (w : Window) (b : Nat) (f : WindowBreath → WindowBreath) : Window :=
  { w with breaths := put w.breaths b (f (w.breathOf b)) }

/-- Blocks of a bitmap that another one does not hold. -/
def without (a b : Nat) : Nat := a - Nat.land a b

/-- Cunits of a breath that hold a covered block not yet durable, as a bitmap. [log 62: DEDUCED] -/
def Window.outstanding (w : Window) (b : Nat) : Nat :=
  let c := without (w.breathOf b).covered (w.breathOf b).settled
  bitmap w.cunits fun i => c / 2 ^ (16 * i) % 2 ^ 16 != 0

/-! ## Events (R108) -/

/-- A window event to the client that created the window. -/
def Dev.windowEvent (d : Dev) (w code : Nat) (data : List Item) : Dev :=
  match find d.memory.windows w with
  | some x => d.postTo x.client Cls.queue code w data
  | none => d

/-! ## Breath completions (R103, R104) -/

/-- WINDOW_DISARMED once the last breath of a DRAINING window is done. -/
def Dev.settleDrain (d : Dev) (w : Nat) : Dev :=
  match find d.memory.windows w with
  | some x =>
    if x.mode = .draining && !(x.breaths.any fun b => decide (b.1 < x.drainFrom)) then
      (d.onWindow w fun x => { x with mode := .disarmed, breaths := [] }).windowEvent w 0x21 [b8 x.lastBreath]
    else d
  | none => d

/-- A closed breath completed with the values given: DEADLINE_MISSED stands in place of OK, a QUIET window posts nothing for
a breath that received no data, and the slot is free. -/
def Dev.completeBreath (d : Dev) (w b status committed missing bad : Nat) : Dev :=
  match find d.memory.windows w with
  | none => d
  | some x => match find x.breaths b with
    | none => d
    | some y =>
      let st := if status = 0 && y.missed then Status.deadlineMissed else status
      let silent := x.quiet && y.covered == 0
      let d := d.onWindow w fun x =>
        { (x.onSlot b fun t => { t with held := false }) with breaths := drop x.breaths b, lastBreath := max x.lastBreath b }
      let d := if silent then d else
        d.produce x.cq (.breath false w st (b % 2 ^ 32) (committed % 2 ^ 24) (missing % 2 ^ 24) (bad % 2 ^ 24) y.short 1) b
      let d := match find d.stripes.namespaces x.nsid with
        | some n => d.mirrorSet n.set
        | none => d
      d.settleDrain w

/-- A breath completed with a status and the counts the module itself knows. [log 62: DEDUCED] -/
def Dev.endBreath (d : Dev) (w b status : Nat) : Dev :=
  match find d.memory.windows w with
  | some x =>
    let y := x.breathOf b
    d.completeBreath w b status y.earlyCommitted (x.slotBlocks - ones x.slotBlocks y.covered) y.earlyBad
  | none => d

/-- A window fenced: no commit starts, closed breaths that wait for their activation complete, and breaths that have not
closed are dropped. Activations already running run to their end (R105, R177, R304). [log 62: DEDUCED] -/
def Dev.fenceWindow (d : Dev) (w prog fault status : Nat) : Dev :=
  match find d.memory.windows w with
  | none => d
  | some x =>
    if x.mode = .fenced then d else
    let d := (d.windowEvent w 0x27 [b4 prog, b1 fault]).onWindow w fun x =>
      { x with mode := .fenced, breaths := x.breaths.filter fun b => b.2.seq.isSome }
    (x.breaths.filter fun b => b.2.seq.isSome && !b.2.started).foldl (fun d b => d.endBreath w b.1 status) d

/-! ## The edge (R43 step 4, R100, R101, R104) -/

/-- Breath `b` of an ARMED or DRAINING window closes: its commit takes an ADMIT_SEQ and waits for a thread. -/
def Dev.closeBreath (d : Dev) (w b : Nat) : Dev :=
  match find d.memory.windows w with
  | none => d
  | some x =>
    let y := { x.breathOf b with
      seq := some d.front.admitNext, gen := d.control.gen, bound := d.boundTo (windowBinding w) 0x10, covered := x.coverage b }
    (d.onWindow w fun x => { x with breaths := put x.breaths b y }).onFront fun f => { f with admitNext := f.admitNext + 1 }

/-- Deadline checks of one window at edge `n`: the breath due that is not durable is reported once. -/
def Dev.checkDeadline (d : Dev) (w n : Nat) : Dev :=
  match find d.memory.windows w with
  | none => d
  | some x =>
    let b := n - 1 - x.deadline
    if n < 1 + x.deadline then d else
    match find x.breaths b with
    | some y =>
      if y.seq.isSome && !y.missed && x.outstanding b != 0 && x.mode != .fenced then
        let d := d.onWindow w fun x => { (x.onBreath b fun y => { y with missed := true }) with breathsMissed := satAdd max32 x.breathsMissed 1 }
        d.windowEvent w 0x22 [b8 b, b4 (ones x.cunits (x.outstanding b))]
      else d
    | none => d

/-- DRAINING from edge `n` on. [log 62: DEDUCED] -/
def Dev.drainWindow (d : Dev) (w n : Nat) : Dev :=
  (d.onWindow w fun x => { x with
    mode := .draining, drainFrom := n
    breaths := x.breaths.filter fun b => b.2.seq.isSome || decide (b.1 < n) }).settleDrain w

/-- Step 4 of edge `n` for one window: the breath `was` that ends here closes (n - 1, but at the edge after a re-seed's seam breath), the
deadline is checked, and a full range starts the drain. [log 24: DEDUCED] -/
def Dev.windowEdge (d : Dev) (w was n : Nat) : Dev :=
  match find d.memory.windows w with
  | none => d
  | some x =>
    let d := if x.mode = .armed && decide (x.firstBreath ≤ was) then d.closeBreath w was else d
    let d := d.checkDeadline w n
    if x.mode = .armed && !x.wrap && decide (n ≥ x.firstBreath + x.rangeBreaths) then
      (d.windowEvent w 0x24 [b8 n]).drainWindow w n
    else d

/-! ## Rows -/

/-- WINDOW_REFUSE_SUMMARY: once per second, where a count is non-zero. -/
def execWindowRefuseSummary (window : Nat) (s : State) : Answer := s.act fun d =>
  match find d.memory.windows window with
  | some x =>
    if x.secondLate + x.secondBusy = 0 then d else
    (d.windowEvent window 0x25 [b4 x.secondLate, b4 x.secondBusy]).onWindow window fun x => { x with secondLate := 0, secondBusy := 0 }
  | none => d

/-- A command in flight moves data to or from a region index: READ, WRITE, GET_LOG or TUNE of kind BUFFER. [log 61: DEDUCED] -/
def InFlight.usesRegion (f : InFlight) (i : Nat) : Bool :=
  let op := byteAt f.entry 0
  (op == 1 || op == 2 || op == 0x44 || op == 0x45) && byteAt f.entry 21 % 8 == 3 && leAt f.entry 32 4 / 256 == i && leAt f.entry 16 4 != 0

/-- A packet of a region has not landed. [log 61: DEDUCED] -/
def Dev.landingIn (d : Dev) (i : Nat) : Bool := d.switch.landing.any fun p => p.place == .region i

/-- REVOKE_DRAIN_DONE: the drain of a revocation has ended; the memory is released and REGION_REVOKE completes (R94). [log 61: DEDUCED] -/
def execRevokeDrainDone (index now : Nat) (s : State) : Answer := s.act fun d =>
  let d := d.clock now
  match find d.memory.regions index with
  | some r => match r.life with
    | .revoking seq =>
      if d.landingIn index || d.front.flight.any fun f => f.2.usesRegion index then d else
      let d := d.onMemory fun m => { m with regions := put m.regions index { r with life := .released now, mem := [] } }
      match seq with
      | some q => d.complete q Status.ok 0
      | none => d
    | _ => d
  | none => d

/-! ## The partner's copies (R106, R333) -/

/-- PL_COPY_RX: a packet of the partner's window enters the mirror of its slot and is acknowledged over PL; while the
mirror slot holds another breath it waits. -/
def execPlCopyRx (c : SlotCopy) (s : State) : Answer := s.act fun d =>
  let slots := ((d.peer.sets.findSome? fun x => find x.2.windows c.window).map Window.slots).getD 64
  if d.peer.slots.any fun x => x.window == c.window && x.breath != c.breath && x.breath % slots == c.breath % slots then d
  else (d.onPeer fun p => { p with slots := p.slots ++ [c] }).emit (.peer (.acknowledge 0))

/-- PL_COPY_ACK: the partner has taken a copy; the packet's ACK to the camera is due. -/
def execPlCopyAck (window breath sa msgId pkt : Nat) (s : State) : Answer := s.act fun d =>
  let c : PlCopy := { sa := sa, msgId := msgId, pktIndex := pkt, window := window, breath := breath }
  if d.memory.plCopies.contains c then
    (d.onMemory fun m => { m with plCopies := m.plCopies.erase c }).admitted sa msgId false
  else d

end Sys2Proof.Machine
end

