-- ==== Sys2Proof/Machine/Flushes.lean ====
section
/-! DEFINITION. Flushes: when a zero-length WRITE with FUA = 1 completes (R143, R147). -/

namespace Sys2Proof.Machine

open Sys2Proof

/-- Opcode of an entry. -/
def opcodeOf (entry : Bytes) : Nat := byteAt entry 0

/-- Namespace of an entry. -/
def nsidOf (entry : Bytes) : Nat := leAt entry 4 4

/-- Commits that have closed and not completed: window, admission count, namespace and range (R147). [log 38: DEDUCED] -/
def Dev.commits (d : Dev) : List (Nat × Nat × Nat × (Nat × Nat)) :=
  (d.memory.windows.map fun w => w.2.breaths.filterMap fun b => b.2.seq.map fun q =>
    (w.1, q, w.2.nsid, (w.2.lbaOf b.1, w.2.slotBlocks))).flatten

/-- A flush may complete: no earlier WRITE, DEALLOCATE or commit of its namespace is unfinished, and none of their seals waits for
its map commit (R143). [log 38: DEDUCED] -/
def Dev.flushed (d : Dev) (seq nsid : Nat) : Bool :=
  !(d.front.flight.any fun f => decide (f.1 < seq) && nsidOf f.2.entry == nsid && (opcodeOf f.2.entry == 2 || opcodeOf f.2.entry == 3) &&
      leAt f.2.entry 16 4 != 0) &&
  !(d.commits.any fun c => decide (c.2.1 < seq) && c.2.2.1 == nsid) &&
  !(d.stripes.seals.any fun s => s.nsid == nsid && decide (s.seq < d.admitSeq seq))

/-- Every flush that may complete does, with OK: R136 takes it out of OK_ZERO_LENGTH. [log 38: DEDUCED] -/
def Dev.settleFlushes (d : Dev) : Dev :=
  d.front.flight.foldl (fun d f =>
    if opcodeOf f.2.entry == 2 && leAt f.2.entry 16 4 == 0 && decide (f.2.stage = .awaiting) &&
        (find d.stripes.namespaces (nsidOf f.2.entry)).isSome && d.flushed f.1 (nsidOf f.2.entry)
    then d.complete f.1 Status.ok 0 else d) d

end Sys2Proof.Machine
end

