-- ==== Sys2Proof/Machine/Sets.lean ====
section
/-! DEFINITION. Stripe sets: geometry, members, redundancy, set states, spares, ledgers, the loss log and reshape
(R255 to R264, R285 to R287, R300 to R322). -/

namespace Sys2Proof.Machine

open Sys2Proof RegisterMap

/-! ## Geometry (R255 to R258) -/

/-- Type of a code. -/
def SetType.ofCode : Nat → Option SetType
  | 1 => some .mirror2
  | 2 => some .mirror3
  | 3 => some .stripe2p
  | _ => none

/-- Code of a type. -/
def SetType.code : SetType → Nat
  | .mirror2 => 1
  | .mirror3 => 2
  | .stripe2p => 3

/-- Whether a width is in a type's range. -/
def SetType.widthOk : SetType → Nat → Bool
  | .mirror2, w => decide (2 ≤ w) && decide (w ≤ 32) && w % 2 == 0
  | .mirror3, w => decide (3 ≤ w) && decide (w ≤ 30) && w % 3 == 0
  | .stripe2p, w => decide (6 ≤ w) && decide (w ≤ 32)

/-- Losses a whole set of the type can bear. -/
def SetType.redundancy : SetType → Nat
  | .mirror2 => 1
  | .mirror3 => 2
  | .stripe2p => 2

/-- Copies of each unit of a mirror; 1 for STRIPE2P. -/
def SetType.copies : SetType → Nat
  | .mirror2 => 2
  | .mirror3 => 3
  | .stripe2p => 1

/-- Data units per stripe. -/
def dataUnits (t : SetType) (width : Nat) : Nat := match t with
  | .stripe2p => width - 2
  | _ => width / t.copies

/-- Data units per stripe of a layout. -/
def Layout.units (l : Layout) : Nat := dataUnits l.type l.width

/-- Bytes of a unit. -/
def unitBytes : Nat := 131072

/-- Data space of a stripe. -/
def Layout.space (l : Layout) : Nat := l.units * unitBytes

/-- RESERVE (R256). -/
def reserve : Nat := 262144

/-- Usable stripes of a set whose smallest member has `m` blocks (R258). -/
def stripesOf (m : Nat) : Nat := (m - reserve) / 32

/-- Whole zones of those stripes. -/
def zonesOf (m : Nat) : Nat := stripesOf m / 1024

/-- Members that hold data unit `j` of stripe `s`: one for STRIPE2P, every copy for mirrors (R256). -/
def Layout.unitMembers (l : Layout) (s j : Nat) : List Nat := match l.type with
  | .stripe2p => [(s + 2 + j) % l.width]
  | t => (List.range t.copies).map fun c => t.copies * j + c

/-- Product in GF(2^8) by g = 2 (R257). -/
def gfDouble (b : Nat) : Nat := let x := 2 * b; if x ≥ 256 then Nat.xor (x - 256) 0x1D else x

/-- P byte: the XOR of the data bytes (R257). -/
def parityP (l : List Nat) : Nat := l.foldl Nat.xor 0

/-- Q byte: the XOR over j of g^j times data byte j (R257). -/
def parityQ : List Nat → Nat
  | [] => 0
  | b :: t => Nat.xor b (gfDouble (parityQ t))

/-! ## Members and redundancy (R300 to R302) -/

/-- A member is lost. -/
def Member.lost (m : Member) : Bool := match m.state with
  | .missing | .failed => true
  | _ => false

/-- A member counts as a gap. -/
def Member.gap (m : Member) : Bool := match m.state with
  | .active => false
  | _ => true

/-- Gaps of a layout. -/
def Layout.gaps (l : Layout) : Nat := (l.members.filter fun m => m.2.gap).length

/-- Copy groups of a mirror: lists of member indices. -/
def Layout.groups (l : Layout) : List (List Nat) :=
  let c := l.type.copies
  (List.range (l.width / c)).map fun j => (List.range c).map fun i => c * j + i

/-- Members of a group that a test accepts. -/
def Layout.countIn (l : Layout) (g : List Nat) (p : Member → Bool) : Nat :=
  (g.filter fun i => match find l.members i with
    | some m => p m
    | none => false).length

/-- REDUNDANCY of a layout (R301). -/
def Layout.redundancy (l : Layout) : Nat := match l.type with
  | .stripe2p => 2 - l.gaps
  | t => l.groups.foldl (fun r g => min r (t.copies - 1 - l.countIn g Member.gap)) (t.copies - 1)

/-- The losses of a layout make its set FAILED (R302). -/
def Layout.failed (l : Layout) : Bool := match l.type with
  | .stripe2p => decide ((l.members.filter fun m => m.2.lost).length > 2)
  | t => l.groups.any fun g => l.countIn g Member.lost == t.copies

/-- Layouts of a set, the newest first. -/
def StripeSet.layouts (t : StripeSet) : List Layout := t.layout :: t.old.toList

/-- A layout holds a zone that is not FREE. -/
def StripeSet.holds (t : StripeSet) (l : Layout) : Bool := t.zones.any fun z => z.2.generation == l.generation

/-- REDUNDANCY of a set: during a reshape, the least over the layouts that hold a zone that is not FREE (R301). -/
def StripeSet.redundancy (t : StripeSet) : Nat :=
  if t.old.isNone then t.layout.redundancy else
  match t.layouts.filter t.holds with
  | [] => t.layout.redundancy
  | l :: r => r.foldl (fun n x => min n x.redundancy) l.redundancy

/-- Lost members of a set as a bitmap of indices of its newest layout. -/
def StripeSet.lostMap (t : StripeSet) : Nat :=
  bitmap 32 fun i => match find t.layout.members i with
    | some m => m.lost
    | none => false

/-- STATE of a set (R302, R303). -/
def StripeSet.judge (t : StripeSet) : SetState :=
  if decide (t.state = .failed) || t.layouts.any Layout.failed then .failed
  else if t.state = .formatting then .formatting
  else
    let r := t.redundancy
    if r = t.layout.type.redundancy then .ready
    else if r ≠ 0 && decide (t.layout.minRedundancy ≤ r) then .degraded
    else .exposed

/-- Code of a set state. -/
def SetState.code : SetState → Nat
  | .formatting => 0
  | .ready => 1
  | .degraded => 2
  | .exposed => 3
  | .failed => 4

/-- Namespaces on a set. -/
def Dev.namespacesOn (d : Dev) (set : Nat) : List Nat :=
  d.stripes.namespaces.filterMap fun n => if n.2.set = set then some n.1 else none

/-- Windows whose namespace lies on a set. -/
def Dev.windowsOn (d : Dev) (set : Nat) : List Nat :=
  let ns := d.namespacesOn set
  d.memory.windows.filterMap fun w => if ns.contains w.2.nsid then some w.1 else none

/-- A fence laid on a namespace. -/
def Namespace.fence (n : Namespace) (f : NsFence) : Namespace :=
  if n.fences.contains f then n else { n with fences := f :: n.fences }

/-- A set that enters FAILED: its namespaces and windows are fenced (R304). -/
def Dev.failSet (d : Dev) (set : Nat) : Dev :=
  let d := (d.namespacesOn set).foldl (fun d n => d.onNs n fun x => x.fence .setFailed) d
  (d.windowsOn set).foldl (fun d w => d.fenceWindow w 0 0 Status.unitFenced) d

/-- The set's STATE evaluated, with the event on entry of a new state (R302). -/
def Dev.judgeSet (d : Dev) (set : Nat) : Dev :=
  match find d.stripes.sets set with
  | none => d
  | some t =>
    let new := t.judge
    if new = t.state then d else
    let d := d.onSet set fun t => { t with state := new, wasReady := t.wasReady || decide (new = .ready) }
    let r := t.redundancy
    match new with
    | .formatting => d
    | .ready => if t.wasReady then d.post Cls.set 0x04 set [] else d
    | .degraded => d.post Cls.set 0x01 set [b1 r, b1 t.layout.gaps]
    | .exposed => d.post Cls.set 0x02 set [b1 r, b1 t.layout.minRedundancy]
    | .failed => (d.post Cls.set 0x03 set [b4 t.lostMap]).failSet set

/-- Index of the member of a layout that a bay's drive serves: a lost member does not return (R300), so its bay serves none. -/
def Layout.indexOn (l : Layout) (bay : Nat) : Option Nat := (l.members.find? fun m => m.2.bay == bay && !m.2.lost).map Prod.fst

/-- The member of an index that a bay's drive serves, in the newest layout that has it: layouts number their members apart (R320). -/
def StripeSet.serving (t : StripeSet) (i bay : Nat) : Option Member :=
  t.layouts.findSome? fun l => match find l.members i with
    | some m => if m.bay = bay && !m.lost then some m else none
    | none => none

/-- The members of every layout that a bay's drive serves, changed. -/
def StripeSet.onServing (t : StripeSet) (bay : Nat) (f : Member → Member) : StripeSet :=
  let g (l : Layout) : Layout := { l with members := mapValues l.members fun _ m => if m.bay = bay && !m.lost then f m else m }
  { t with layout := g t.layout, old := t.old.map g }

/-- The set and member index that a bay serves, members standing on the bay only (not drives being replaced). -/
def Dev.memberOf (d : Dev) (bay : Nat) : Option (Nat × Nat) :=
  d.stripes.sets.findSome? fun t => (t.2.layouts.findSome? fun l => l.indexOn bay).map fun i => (t.1, i)

/-- The set whose RETIRING drive, under replacement, lies on a bay. -/
def Dev.retiringOf (d : Dev) (bay : Nat) : Option (Nat × Nat) :=
  d.stripes.sets.findSome? fun t => (t.2.layouts.findSome? fun l =>
    l.members.findSome? fun m => if m.2.retiringBay = some bay then some m.1 else none).map fun i => (t.1, i)

/-- Rebuild position of a member, in stripes: a free value while it is REBUILDING, at most the stripes of its set. -/
def Dev.rebuildPosition (d : Dev) (n : Nat) (t : StripeSet) (m : Member) : Nat :=
  if m.state = .rebuilding then Config.rebuildPosition n m.bay d.now % (t.layout.stripes + 1) else 0

/-! ## Ledgers (R285 to R287, R322) -/

/-- ACTIVE members of a set that may host a ledger: those of its newest layout (R321). -/
def StripeSet.hosts (t : StripeSet) : List Nat :=
  t.layout.members.filterMap fun m =>
    if m.2.state = .active then some m.2.bay else none

/-- A set of this module or of the partner. -/
def Dev.anySet (d : Dev) (n : Nat) : Option StripeSet :=
  (find d.stripes.sets n).orElse fun _ => (find d.peer.sets n).map SetImage.set

/-- The host of set `n`'s ledger: the first set after it, wrapping, of either module, with two ACTIVE members; save-flash where that set
is FAILED, where the host in use has become FAILED, and where no set qualifies (R285, R322). [log 128: DEDUCED] -/
def Dev.ledgerHost (d : Dev) (n : Nat) (now : LedgerHost) : LedgerHost :=
  let failed (h : Nat) : Bool := ((d.anySet h).map fun t => decide (t.state = .failed)).getD false
  let choice := ((List.range 15).findSome? fun k =>
    let h := (n + 1 + k) % 16
    match (d.anySet h).map StripeSet.hosts with
    | some (a :: b :: _) => some (if failed h then LedgerHost.flash else .members h a b)
    | _ => none).getD .flash
  match now with
  | .members h _ _ => if failed h then .flash else choice
  | .flash => choice

/-- The bays of a ledger host; 0xFF stands for save-flash in an event. -/
def LedgerHost.bays : LedgerHost → List Nat
  | .flash => [0xFF, 0xFF]
  | .members _ a b => [a, b]

/-- Every owned set's ledger moved to the host R285 gives now; LEDGER_MOVED for each copy that moves (R287, R322). -/
def Dev.placeLedgers (d : Dev) : Dev :=
  d.stripes.sets.foldl (fun d t =>
    if t.2.owner ≠ d.slot then d else
    let host := d.ledgerHost t.1 t.2.ledger
    if host = t.2.ledger then d else
    let d := d.onSet t.1 fun x => { x with ledger := host }
    ((t.2.ledger.bays.filter fun b => !host.bays.contains b).zip (host.bays.filter fun b => !t.2.ledger.bays.contains b)).foldl
      (fun d p => d.post Cls.set 0x32 t.1 [b1 p.1, b1 p.2]) d) d

/-- Each edge while the partner is standby-ready: the records since the previous edge go to both ledger copies (R286). [log 79: DEDUCED] -/
def Dev.writeLedgers (d : Dev) : Dev :=
  d.onStripes fun x => { x with sets := mapValues x.sets fun _ t =>
    if t.owner = d.slot then { t with ledgerJseq := x.nextJseq } else t }

/-! ## Losing members -/

/-- A range of numbers less one of them. -/
def splitRange (e : Nat) (r : Nat × Nat) : List (Nat × Nat) :=
  if r.1 ≤ e && e < r.2 then [(r.1, e), (e + 1, r.2)] else [r]

/-- STRIPE_SEQs of the stripes of a set that a test accepts. -/
def StripeSet.seqsWhere (t : StripeSet) (p : Stripe → Bool) : List Nat := (t.stripes.filter fun s => p s.2).map fun s => s.2.seq

/-- STRIPE_SEQ ranges that a lost spare took: from its join on, less the stripes still open, and those of the tail it joined for (R508). -/
def StripeSet.takenBy (t : StripeSet) (m : Member) : List (Nat × Nat) :=
  (t.seqsWhere fun x => decide (x.life = .opened)).foldl (fun l e => (l.map (splitRange e)).flatten)
    ((m.joinSeq, t.nextSeq) :: m.tail.map fun q => (q, q + 1))

/-- MEMBER_LOST causes: DRIVE_FAILED's codes, 6 removed or absent, 7 ERR_LIMIT (R324). -/
def Dev.loseMember (d : Dev) (set i bay : Nat) (new : MemberState) (cause : Nat) : Dev :=
  match find d.stripes.sets set with
  | none => d
  | some t =>
    match t.serving i bay with
    | none => d
    | some _ =>
      let code := match new with
        | .missing => 1
        | _ => 4
      let d := d.post Cls.set 0x05 set [b1 i, b1 bay, b1 code, b1 cause]
      let d := d.onSet set fun t => t.onServing bay fun m =>
        match m.retiringBay with
        | some r =>
          { bay := r, state := .retiring, skipped := t.takenBy m ++ m.skipped, sinceBreath := m.sinceBreath }
        | none => { m with state := new, sinceBreath := d.breath, noneposted := false }
      d.judgeSet set

/-- A member becomes RETIRING; it stays in service as a gap (R314). [log 127: DEDUCED] -/
def Dev.retireMember (d : Dev) (set i bay : Nat) : Dev :=
  match find d.stripes.sets set with
  | none => d
  | some t =>
    match t.serving i bay with
    | some m =>
      if m.state ≠ .active then d else
      (d.onSet set fun t => t.onServing bay fun m => { m with state := .retiring, sinceBreath := d.breath }).judgeSet set
    | none => d

/-! ## Spares (R305 to R307, R506) -/

/-- A bay holds a QUALIFIED drive. -/
def Dev.qualified (d : Dev) (bay : Nat) : Bool := decide ((d.bay bay).state = .qualified)

/-- Capacity of a bay's drive in 4 KiB blocks. -/
def Dev.capacity (d : Dev) (bay : Nat) : Nat := ((d.bay bay).drive.map Drive.capacity).getD 0

/-- A bay stands in a set's layouts: as a member, lost or not, or as a RETIRING drive under replacement. -/
def StripeSet.names (t : StripeSet) (bay : Nat) : Bool :=
  t.layouts.any fun l => l.members.any fun m => m.2.bay == bay || m.2.retiringBay == some bay

/-- The set that a bay's drive serves, or else one whose layouts name the bay, of this module or of the partner. -/
def Dev.setOfBay (d : Dev) (bay : Nat) : Option Nat :=
  (((d.memberOf bay).orElse fun _ => d.retiringOf bay).map Prod.fst).orElse fun _ =>
  ((d.stripes.sets.find? fun x => x.2.names bay).map Prod.fst).orElse fun _ => (d.peer.sets.find? fun x => x.2.set.names bay).map Prod.fst

/-- A bay's drive serves a set, of this module or of the partner: a bay whose member is lost does not (R307). [log 130: DEDUCED] -/
def Dev.inSet (d : Dev) (bay : Nat) : Bool :=
  (d.memberOf bay).isSome || (d.retiringOf bay).isSome ||
    d.peer.sets.any fun x => x.2.set.layouts.any fun l => l.members.any fun m => (m.2.bay == bay && !m.2.lost) || m.2.retiringBay == some bay

/-- A bay's label names a set in which its member is neither lost nor RETIRING (R307). -/
def Dev.labelLive (d : Dev) (bay : Nat) : Bool :=
  match (d.bay bay).drive.bind Drive.label with
  | none => false
  | some l => match (find d.stripes.sets l.set).orElse fun _ => (find d.peer.sets l.set).map SetImage.set with
    | none => false
    | some t => t.identity == l.identity && l.layouts.any fun x => t.layouts.any fun y => x.generation == y.generation &&
      match find y.members x.member with
      | some m => !m.lost && decide (m.state ≠ .retiring)
      | none => false

/-- Labels of a bay's drive zeroised or written. -/
def Dev.setLabel (d : Dev) (bay : Nat) (l : Option Label) : Dev :=
  d.onBay bay fun b => { b with drive := b.drive.map fun x => { x with label := l } }

/-- A layout as the label of its member `i` lists it. -/
def Layout.listing (l : Layout) (i : Nat) : LabelLayout :=
  { generation := l.generation, type := l.type.code, width := l.width, member := i, bays := l.members.map fun m => m.2.bay }

/-- The label of a set's drive on a bay. -/
def StripeSet.labelOn (t : StripeSet) (set bay : Nat) : Label :=
  { set := set, identity := t.identity, home := t.home, layouts := t.layouts.filterMap fun l => (l.indexOn bay).map l.listing }

/-- Labels of every member of a set written: they list every layout that has a member on the bay (R259, R318). -/
def Dev.writeLabels (d : Dev) (set : Nat) : Dev :=
  match find d.stripes.sets set with
  | none => d
  | some t => t.layouts.foldl (fun d l => l.members.foldl (fun d m => if m.2.lost then d else
      d.setLabel m.2.bay (some (t.labelOn set m.2.bay))) d) d

/-- The labels of a set's drive on a bay zeroised; those of another set stay. -/
def Dev.zeroiseLabel (d : Dev) (set identity bay : Nat) : Dev :=
  match (d.bay bay).drive.bind Drive.label with
  | some l => if l.set = set && l.identity = identity then d.setLabel bay none else d
  | none => d

/-- Two members of two layouts of a set are one. -/
def Member.same (a b : Member) : Bool := a.bay == b.bay && decide (a.state = b.state) && a.sinceBreath == b.sinceBreath

/-- A member of a set that awaits a spare: lost, or RETIRING and not being replaced. -/
def Member.waits (m : Member) : Bool := m.lost || (decide (m.state = .retiring))

/-- Members that await a spare, in the order of R306: set, index, and the key that orders them. -/
def Dev.waiting (d : Dev) : List (Nat × Nat) :=
  let all := (d.stripes.sets.map fun t =>
    if t.2.owner ≠ d.slot || t.2.state = .failed then [] else
    t.2.layout.members.filterMap fun m =>
      if m.2.waits then some ((flag (!m.2.lost), t.2.redundancy, m.2.sinceBreath), t.1, m.1) else none).flatten
  let before (a b : (Nat × Nat × Nat) × Nat × Nat) : Bool :=
    a.1.1 < b.1.1 || (a.1.1 == b.1.1 && (a.1.2.1 < b.1.2.1 || (a.1.2.1 == b.1.2.1 && (a.1.2.2 < b.1.2.2 ||
      (a.1.2.2 == b.1.2.2 && (a.2.1 < b.2.1 || (a.2.1 == b.2.1 && decide (a.2.2 < b.2.2))))))))
  let rec place (x : (Nat × Nat × Nat) × Nat × Nat) : List ((Nat × Nat × Nat) × Nat × Nat) → List ((Nat × Nat × Nat) × Nat × Nat)
    | [] => [x]
    | y :: t => if before x y then x :: y :: t else y :: place x t
  (all.foldr place []).map fun x => x.2

/-- The spare that R306 chooses for a member of a set, some bays being taken. -/
def Dev.spareOtherThan (d : Dev) (taken : List Nat) (set : Nat) : Option Nat :=
  match find d.stripes.sets set with
  | none => none
  | some t =>
    let zones := t.layouts.foldl (fun n l => max n l.zones) 0
    let fits (bay : Nat) : Bool := d.qualified bay && !d.stripes.labelledSpares.contains bay && !taken.contains bay &&
      decide (d.capacity bay ≥ reserve + 32 * 1024 * zones)
    let own := d.stripes.spares.filterMap fun s => if s.2 = set && fits s.1 then some s.1 else none
    let pool := d.stripes.spares.filterMap fun s => if s.2 = 0xFF && fits s.1 then some s.1 else none
    (own ++ pool).head?

/-- The spare that R306 chooses for a member of a set. -/
def Dev.chooseSpare (d : Dev) (set : Nat) : Option Nat := d.spareOtherThan [] set

/-- SPARE_NONE, once for each member that waits (R306). -/
def Dev.noSpare (d : Dev) (set i : Nat) : Dev :=
  match (find d.stripes.sets set).bind fun t => find t.layout.members i with
  | some m =>
    if m.noneposted then d else
      (d.onSet set fun t => { t with layout := { t.layout with members := alter t.layout.members i fun m =>
        { m with noneposted := true } } }).post Cls.set 0x07 set [b1 i]
  | none => d

/-- Members that await a spare and for which none is left when each takes one in the order of R306. [log 131: DEDUCED] -/
def Dev.spareless (d : Dev) : List (Nat × Nat) :=
  (d.waiting.foldl (fun (x : List Nat × List (Nat × Nat)) w => match d.spareOtherThan x.1 w.1 with
    | some bay => (bay :: x.1, x.2)
    | none => (x.1, x.2 ++ [w])) ([], [])).2

/-- SPARE_NONE for every member that finds no spare; a halted Drone chooses none (R350). [log 131: DEDUCED] -/
def Dev.noSpares (d : Dev) : Dev :=
  if d.control.halted then d else d.spareless.foldl (fun d w => d.noSpare w.1 w.2) d

/-- Stripes of a set that the rebuild of a member walks: those written before it joined, in zones that are not FREE or PENDING_FREE and
whose layout contains the member (R308). -/
def StripeSet.rebuildStripes (t : StripeSet) (m : Member) : Nat :=
  (t.stripes.filter fun s => decide (s.2.seq < m.joinSeq) && !m.tail.contains s.2.seq && (match find t.zones (s.1 / 1024) with
    | some z => decide (z.state ≠ .pendingFree)
    | none => false) && t.layouts.any fun (l : Layout) => l.generation == s.2.generation && (l.indexOn m.bay).isSome).length

/-- Bitmap of the spare bays. -/
def Dev.spareMap (d : Dev) : Nat := bitmap 32 fun b => (find d.stripes.spares b).isSome

/-- Checks of SPARE_ASSIGN (R305, R307). [log 130: DEDUCED] -/
def checkSpareAssign (r : Rec) (d : Dev) : Verdict :=
  let bay := byteAt r.entry 8
  let scope := byteAt r.entry 9
  let release := bitOf (byteAt r.entry 10) 0
  fields [(8, decide (bay ≤ 31) && d.qualified bay), (9, scope == 0xFF || (decide (scope ≤ 15) && ((find d.stripes.sets scope).isSome || (find d.peer.sets scope).isSome))),
    (10, if release then find d.stripes.spares bay == some scope
         else (find d.stripes.spares bay).isNone && !d.inSet bay && !d.labelLive bay)]

/-- Effect of SPARE_ASSIGN; an assignment zeroises a stale drive's labels (R307). -/
def applySpareAssign (r : Rec) (d : Dev) : Dev × Nat :=
  let bay := byteAt r.entry 8
  if bitOf (byteAt r.entry 10) 0 then
    (d.onStripes fun x => { x with spares := drop x.spares bay, labelledSpares := x.labelledSpares.erase bay }, 0)
  else
    let scope := byteAt r.entry 9
    ((d.setLabel bay none).onStripes fun x => { x with
      spares := put x.spares bay scope
      freshSpares := x.freshSpares ++ [bay]
      sets := mapValues x.sets fun n t => if scope = n || scope = 0xFF then { t with retest := true } else t }, 0)

/-! ## Creating and deleting sets (R261, R262) -/

/-- Bays of a BAYS field, ascending. -/
def baysOf (map : Nat) : List Nat := (List.range 32).filter fun b => bitOf map b

/-- The smallest capacity of some bays. -/
def Dev.leastCapacity (d : Dev) (bays : List Nat) : Nat :=
  match bays with
  | [] => 0
  | b :: t => t.foldl (fun n b => min n (d.capacity b)) (d.capacity b)

/-- A bay that SET_CREATE may name: qualified, in no set, no spare, and its label not live. [log 130: DEDUCED] -/
def Dev.bayFree (d : Dev) (b : Nat) : Bool :=
  d.qualified b && !d.inSet b && (find d.stripes.spares b).isNone && !d.labelLive b

/-- Checks of SET_CREATE. -/
def checkSetCreate (r : Rec) (d : Dev) : Verdict :=
  let p := r.payload
  let n := byteAt r.entry 8
  let width := byteAt p 1
  let bays := baysOf (leAt p 4 4)
  let red := ((SetType.ofCode (byteAt p 0)).map SetType.redundancy).getD 0
  let widthOk := match SetType.ofCode (byteAt p 0) with
    | some t => t.widthOk width
    | none => false
  (fields [(8, decide (n ≤ 15) && (find d.stripes.sets n).isNone && (find d.peer.sets n).isNone)]).andThen
  (descriptorFields [(0, (SetType.ofCode (byteAt p 0)).isSome), (1, widthOk),
    (2, decide (1 ≤ byteAt p 2) && decide (byteAt p 2 ≤ red)), (3, decide (byteAt p 3 ≤ 1)),
    (4, bays.length == width && bays.all d.bayFree && decide (zonesOf (d.leastCapacity bays) ≥ 16)),
    (8, decide (1 ≤ leAt p 8 2) && decide (leAt p 8 2 ≤ 60000)),
    (10, decide (1 ≤ byteAt p 10) && decide (byteAt p 10 ≤ 50)), (11, zeroRange p 11 63)])

/-- Members of a layout on some bays, by ascending bay. -/
def membersOn (bays : List Nat) : Table Member := (List.range bays.length).map fun i => (i, { bay := bays.getD i 0 })

/-- Offset of a per-set register of STR. -/
def setAt (n off : Nat) : Nat := str + 0x1000 + n * 0x80 + off

/-- Effect of SET_CREATE: the set exists with every zone free and is FORMATTING until SET_READY. -/
def applySetCreate (r : Rec) (d : Dev) : Dev × Nat :=
  let p := r.payload
  let n := byteAt r.entry 8
  let bays := baysOf (leAt p 4 4)
  let (id, d) := d.draw 8
  let owner := byteAt p 3 % 2
  let t : StripeSet := {
    identity := leNat id, owner := owner, home := owner,
    layout := { type := (SetType.ofCode (byteAt p 0)).getD .mirror2, width := byteAt p 1, minRedundancy := byteAt p 2, generation := 0,
                members := membersOn bays, stripes := stripesOf (d.leastCapacity bays), zones := zonesOf (d.leastCapacity bays) } }
  let d := bays.foldl (fun d b => d.setLabel b none) d
  let d := d.onStripes fun x => { x with sets := put x.sets n t }
  (d.setReg (setAt n 0x10) (leAt p 8 2 + byteAt p 10 * 65536), 0)

/-- SET_READY: both label copies are written on every member (R261). [log 80: DESIGN CHOICE] -/
def execSetReady (set : Nat) (s : State) : Answer := s.act fun d =>
  match find d.stripes.sets set with
  | some t =>
    if t.state ≠ .formatting then d else
    let d := d.writeLabels set
    let d := d.post Cls.set 0x30 set [b4 t.layout.zones, b8 t.layout.stripes]
    (d.onSet set fun t => { t with state := .ready, wasReady := decide (t.redundancy = t.layout.type.redundancy) }).judgeSet set
  | none => d

/-- Checks of SET_DELETE: no namespace lies on the set. -/
def checkSetDelete (r : Rec) (d : Dev) : Verdict :=
  let n := byteAt r.entry 8
  fields [(8, (find d.stripes.sets n).isSome)]

/-- Check of SET_DELETE at commit: no namespace lies on the set. -/
def commitSetDelete (r : Rec) (d : Dev) : Verdict := fields [(8, (d.namespacesOn (byteAt r.entry 8)).isEmpty)]

/-- Effect of SET_DELETE: labels zeroised, bays released, spares of the set no longer spares, ledgers it hosts moved. -/
def applySetDelete (r : Rec) (d : Dev) : Dev × Nat :=
  let n := byteAt r.entry 8
  let d := match find d.stripes.sets n with
    | some t => (List.range 32).foldl (fun (d : Dev) b => d.zeroiseLabel n t.identity b) d
    | none => d
  let d := d.onStripes fun x => { x with
    sets := drop x.sets n, spares := keepIf x.spares fun _ s => s != n, records := keepIf x.records fun _ y => y.set != n,
    seals := x.seals.filter fun y => y.set != n, journal := x.journal.filter fun y => y.set != n }
  let d := [0x10, 0x30, 0x48].foldl (fun d o => (d.setReg (setAt n o) (resetWordAt (setAt n o))).forgetWritten (setAt n o)) d
  (d, 0)

/-! ## Namespaces (R263, R264) -/

/-- A namespace on a set of the partner, from the mirror. -/
def Dev.partnerNs (d : Dev) (nsid : Nat) : Option Namespace := d.peer.sets.findSome? fun x => find x.2.spaces nsid

/-- Sum of SIZE_BLOCKS over the shelf. -/
def Dev.shelfBlocks (d : Dev) : Nat :=
  let sum (l : Table Namespace) : Nat := l.foldl (fun n x => n + x.2.size) 0
  d.peer.sets.foldl (fun n x => n + sum x.2.spaces) (sum d.stripes.namespaces)

/-- A key-table entry is a LIVE DEK. -/
def Dev.liveDek (d : Dev) (k : Nat) : Bool := match find d.cipher.keys k with
  | some e => e.type == 2 && decide (e.life = .live)
  | none => false

/-- Checks of NS_CREATE. -/
def checkNsCreate (r : Rec) (d : Dev) : Verdict :=
  let p := r.payload
  let nsid := leAt r.entry 4 4
  let size := leAt p 8 8
  (fields [(4, decide (1 ≤ nsid) && decide (nsid ≤ 4096) && (find d.stripes.namespaces nsid).isNone &&
    (find d.stripes.releasing nsid).isNone && (d.partnerNs nsid).isNone)]).andThen <|
  (descriptorFields [(0, (find d.stripes.sets (byteAt p 0)).isSome), (1, zeroRange p 1 7), (8, decide (1 ≤ size) && decide (size ≤ 2 ^ 41)),
    (16, decide (64 ≤ leAt p 16 2) && decide (leAt p 16 2 ≤ 8191) && d.liveDek (leAt p 16 2)), (18, zeroRange p 18 19),
    (20, coderOk (leAt p 20 4)), (24, zeroRange p 24 63)]).andThen <|
  require (decide (d.shelfBlocks + size ≤ 2 ^ 41)) Status.admissionRefused 0

/-- Effect of NS_CREATE. -/
def applyNsCreate (r : Rec) (d : Dev) : Dev × Nat :=
  let p := r.payload
  let n : Namespace := { set := byteAt p 0, size := leAt p 8 8, keyId := leAt p 16 2, coder := leAt p 20 4 }
  (d.onStripes fun x => { x with namespaces := put x.namespaces (leAt r.entry 4 4) n }, 0)

/-- Checks of NS_DELETE: no window but a DISARMED one names the namespace. -/
def checkNsDelete (r : Rec) (d : Dev) : Verdict :=
  let nsid := leAt r.entry 4 4
  fields [(4, (find d.stripes.namespaces nsid).isSome)]

/-- Check of NS_DELETE at commit: every window that names the namespace is DISARMED. -/
def commitNsDelete (r : Rec) (d : Dev) : Verdict :=
  fields [(4, d.memory.windows.all fun w => w.2.nsid != leAt r.entry 4 4 || decide (w.2.mode = .disarmed))]

/-- Effect of NS_DELETE: the namespace ceases to exist; its map is released in the background. -/
def applyNsDelete (r : Rec) (d : Dev) : Dev × Nat :=
  let nsid := leAt r.entry 4 4
  match find d.stripes.namespaces nsid with
  | some n =>
    (d.onStripes fun x => { x with namespaces := drop x.namespaces nsid, releasing := put x.releasing nsid n }, 0)
  | none => (d, 0)

/-- Mapped blocks of a namespace. -/
def Namespace.mapped (n : Namespace) : Nat :=
  n.granules.foldl (fun k g => g.2.extents.foldl (fun k e => k + e.count) k) 0

/-- NS_RELEASED: the map entries and pages of a deleted namespace are released, once the work admitted before the edge has ended.
[log 80: DESIGN CHOICE] -/
def execNsReleased (nsid : Nat) (s : State) : Answer := s.running fun d =>
  match find d.stripes.releasing nsid with
  | some n =>
    if (d.chanters.threads.any fun a => a.2.nsid == nsid) || d.front.flight.any fun f =>
        nsidOf f.2.entry == nsid && decide (1 ≤ opcodeOf f.2.entry) && decide (opcodeOf f.2.entry ≤ 3) then d else
    let d := d.onStripes fun x => { x with
      releasing := drop x.releasing nsid, seals := x.seals.filter fun y => y.nsid != nsid, mapFull := false }
    let d := d.onSet n.set fun t => { t with losses := t.losses.filter fun l => !l.logical || l.nsid != nsid }
    d.post Cls.set 0x38 nsid [b8 n.mapped]
  | none => d

/-! ## Reshape (R314 to R321) -/

/-- The fit test of R317. -/
def fits (used oldUnits newUnits zones pct : Nat) : Bool :=
  decide ((used * oldUnits + newUnits - 1) / max 1 newUnits + 2 + (zones * pct + 99) / 100 ≤ zones)

/-- GC_START_PCT in force. -/
def Dev.gcStart (d : Dev) (n : Nat) : Nat := d.field (setAt n 0x10) 16 6

/-- A bay that SET_RESHAPE may name. -/
def Dev.bayForReshape (d : Dev) (n : Nat) (b : Nat) : Bool :=
  match find d.stripes.sets n with
  | none => false
  | some t =>
    t.layout.members.any (fun m => m.2.bay = b && !m.2.lost) || (find d.stripes.spares b == some n && d.qualified b) || d.bayFree b

/-- Checks of a reshape to a layout, at commit (R315). -/
def Dev.reshapeOk (d : Dev) (n : Nat) (type : Option SetType) (width red : Nat) (bays : List Nat) : Verdict :=
  match find d.stripes.sets n with
  | none => badField 8
  | some t =>
    (require t.old.isNone Status.txnConflict (0x66 + 7 * 256 + n * 65536)).andThen <|
    (require (decide (t.state ≠ .formatting) && decide (t.state ≠ .failed)) Status.invalidField 8).andThen <|
    match type with
    | none => some (Status.invalidField, inDescriptor 0)
    | some ty =>
      (descriptorFields [(1, ty.widthOk width), (2, decide (1 ≤ red) && decide (red ≤ ty.redundancy)),
        (4, bays.length == width && bays.all (d.bayForReshape n))]).andThen <|
      require (fits t.zones.length t.layout.units (dataUnits ty width) (zonesOf (d.leastCapacity bays)) (d.gcStart n))
        Status.invalidField 4

/-- Checks of SET_RESHAPE. -/
def checkSetReshape (r : Rec) (d : Dev) : Verdict :=
  let p := r.payload
  (fields [(8, (find d.stripes.sets (byteAt r.entry 8)).isSome)]).andThen (descriptorFields [(3, byteAt p 3 == 0), (8, zeroRange p 8 63)])

/-- Checks of SET_RESHAPE at commit. -/
def commitSetReshape (r : Rec) (d : Dev) : Verdict :=
  let p := r.payload
  d.reshapeOk (byteAt r.entry 8) (SetType.ofCode (byteAt p 0)) (byteAt p 1) (byteAt p 2) (baysOf (leAt p 4 4))

end Sys2Proof.Machine
end

