-- ==== Sys2Proof/Machine/Log.lean ====
section
/-! DEFINITION. The log of a stripe set: NVMe issue, streams, records, stripes, seals, map commits, the journal,
checkpoints, collection, losses and recovery (R265 to R296, R308 to R313, R318 to R323, R405). -/

namespace Sys2Proof.Machine

open Sys2Proof RegisterMap

/-! ## Issuing NVMe commands (R404, R405, R413) -/

/-- Whether a use writes the drive. -/
def NvmeUse.isWrite : NvmeUse → Bool
  | .unitWrite _ _ _ | .rebuildWrite _ _ _ | .labelWrite _ _ | .ledgerWrite _ => true
  | _ => false

/-- Whether a use reads the drive (R408, R409). -/
def NvmeUse.isRead : NvmeUse → Bool
  | .recordRead _ | .scrubRead _ _ => true
  | _ => false

/-- Whether a use is an admin command (R408). -/
def NvmeUse.isAdmin : NvmeUse → Bool
  | .admin _ => true
  | _ => false

/-- An NVMe command issued to a bay: held while its link is lost (R413), and no Write while the gate is closed (R386). -/
def Dev.issue (d : Dev) (bay : Nat) (use : NvmeUse) : Dev :=
  let b := d.bay bay
  match b.state with
  | .linkLost => d.onBay bay fun b => { b with waiting := if use.isWrite then b.waiting ++ [use] else b.waiting }
  | .qualified =>
    if use.isWrite && d.peer.gateClosed then d else
    let taken : Table Unit := b.commands.map (fun c => (c.1, ())) ++ b.quarantined.map fun c => (c, ())
    let start := b.nextCid % 65536
    match (freeKey taken start (65536 - start)).orElse fun _ => freeKey taken 0 start with
    | some cid => (d.onBay bay fun b => { b with commands := put b.commands cid use, nextCid := cid + 1 }).emit (.nvme bay cid use)
    | none => d
  | .qualifying => match use with
    | .admin _ =>
      (d.onBay bay fun b => { b with commands := put b.commands (b.nextCid % 65536) use, nextCid := b.nextCid + 1 }).emit
        (.nvme bay (b.nextCid % 65536) use)
    | _ => d
  | _ => d

/-! ## The journal (R281 to R283) -/

/-- Records of the ring: 2,097,152. -/
def journalRing : Nat := 2097152

/-- Ring positions held: from the oldest unretired record on (R283). -/
def Stripes.ringUsed (x : Stripes) : Nat := match x.journal with
  | r :: _ => x.nextJseq - r.jseq
  | [] => 0

/-- The ring is full: `app` and `unmap` issues wait. -/
def Dev.journalFull (d : Dev) : Bool := decide (d.stripes.ringUsed ≥ journalRing)

/-- A journal record made, kept until it retires where `keep`; JOURNAL_PRESSURE at 75 %. -/
def Dev.journal (d : Dev) (set : Nat) (kind : JournalKind) (keep : Bool := true) : Dev :=
  let d := d.onStripes fun x => { x with
    journal := if keep then x.journal ++ [{ jseq := x.nextJseq, set := set, kind := kind }] else x.journal
    nextJseq := x.nextJseq + 1 }
  let d := d.mirrorSet set
  let high := decide (4 * d.stripes.ringUsed ≥ 3 * journalRing)
  if high && !d.stripes.pressurePosted then
    (d.onStripes fun x => { x with pressurePosted := true }).post Cls.set 0x36 set [b4 d.stripes.journal.length]
  else if !high then d.onStripes fun x => { x with pressurePosted := false } else d

/-- Journal records that a test accepts retire. -/
def Dev.retire (d : Dev) (p : JournalRecord → Bool) : Dev :=
  d.onStripes fun x => { x with journal := x.journal.filter fun r => !p r }

/-! ## Zones and streams (R265 to R268) -/

/-- A record that holds no stream, before it is placed. -/
def Record.fresh (set : Nat) (kind : RecordKind) (nsid first : Nat) (body : Bytes) : Record :=
  { set := set, kind := kind, nsid := nsid, first := first, blocks := 0, body := body, stripe := 0, offset := 0, generation := 0 }

/-- Free zones of a set's newest layout. -/
def StripeSet.freeZones (t : StripeSet) : Nat := t.layout.zones - (t.zones.filter fun z => decide (z.1 < t.layout.zones)).length

/-- The free zone with the lowest number. -/
def StripeSet.lowestFree (t : StripeSet) : Option Nat := freeKey t.zones 0 (min t.layout.zones (t.zones.length + 1))

/-- Stripes of a zone. -/
def StripeSet.inZone (t : StripeSet) (z : Nat) : Table Stripe := t.stripes.filter fun s => s.1 / 1024 == z

/-- The next stripe of a zone a stream fills. -/
def StripeSet.nextIn (t : StripeSet) (z : Nat) : Option Nat :=
  let n := (t.inZone z).foldl (fun n s => max n (s.1 + 1)) (z * 1024)
  if n < (z + 1) * 1024 then some n else none

/-- The layout of a generation. -/
def StripeSet.layoutOf (t : StripeSet) (gen : Nat) : Layout :=
  match t.old with
  | some l => if l.generation = gen then l else t.layout
  | none => t.layout

/-- The stripe a stream opens next, with its zone; HOST appends leave the last two free zones to BACKGROUND (R294). -/
def StripeSet.nextStripe (t : StripeSet) (host : Bool) : Option (Nat × Nat) :=
  match (if host then t.hostZone else t.backZone).bind fun z => (t.nextIn z).map fun s => (z, s) with
  | some p => some p
  | none => if host && decide (t.freeZones ≤ 2) then none else t.lowestFree.map fun z => (z, z * 1024)

/-- A stripe opened for a stream: STRIPE_SEQ rises, the header takes 64 bytes (R265, R266). -/
def StripeSet.openStripe (t : StripeSet) (host : Bool) : Option (Nat × StripeSet) :=
  (t.nextStripe host).map fun (z, s) =>
    let zones := match find t.zones z with
      | some _ => t.zones
      | none => put t.zones z { state := .filling, generation := t.layout.generation, firstSeq := t.nextSeq }
    let stripe : Stripe := { seq := t.nextSeq, generation := t.layout.generation, host := host, life := .opened, used := 64 }
    let t := { t with zones := zones, stripes := put t.stripes s stripe, nextSeq := t.nextSeq + 1 }
    (s, if host then { t with hostOpen := some s, hostZone := some z } else { t with backOpen := some s, backZone := some z })

/-- Member indices of a layout that take a stripe's unit write. -/
def Layout.writers (l : Layout) : List Nat := l.members.filterMap fun m => if m.2.lost then none else some m.1

/-- A closed stripe's unit writes issued to every member that is not lost (R268). -/
def Dev.writeStripe (d : Dev) (set s : Nat) : Dev :=
  match find d.stripes.sets set with
  | none => d
  | some t => match find t.stripes s with
    | none => d
    | some x =>
      let l := t.layoutOf x.generation
      let writers := l.writers
      let d := d.onSet set fun t => { t with stripes := alter t.stripes s fun x => { x with unwritten := writers } }
      writers.foldl (fun d i => match find l.members i with
        | some m => d.issue m.bay (.unitWrite set s i)
        | none => d) d

/-- A stream's open stripe closed with PAD and written (R267). -/
def Dev.closeStripe (d : Dev) (set : Nat) (host : Bool) : Dev :=
  match find d.stripes.sets set with
  | none => d
  | some t => match if host then t.hostOpen else t.backOpen with
    | none => d
    | some s => match find t.stripes s with
      | none => d
      | some x =>
        let pad := (t.layoutOf x.generation).space - x.used
        let d := d.onSet set fun t =>
          let t := { t with
            stripes := alter t.stripes s fun x => { x with life := .closed, closedBreath := d.breath }
            padBytes := (t.padBytes + pad) % 2 ^ 64 }
          if host then { t with hostOpen := none } else { t with backOpen := none }
        d.writeStripe set s

/-- SPACE_LOW posted once when the free zones reach 2, and again after they have risen (R294). -/
def Dev.noteSpace (d : Dev) (set : Nat) : Dev :=
  match find d.stripes.sets set with
  | none => d
  | some t =>
    let low := decide (t.freeZones ≤ 2)
    if low && !t.lowPosted then
      (d.onSet set fun t => { t with lowPosted := true }).post Cls.set 0x33 set [b4 t.freeZones]
    else if !low && (t.lowPosted || t.exhaustedPosted) then
      d.onSet set fun t => { t with lowPosted := false, exhaustedPosted := false }
    else d

/-- A fresh stripe opened for a stream; `none` where no zone can be taken. -/
def Dev.openStream (d : Dev) (set : Nat) (host : Bool) : Option (Nat × Dev) :=
  match (find d.stripes.sets set).bind fun t => t.openStripe host with
  | some (s, t) => some (s, (d.onSet set fun _ => t).noteSpace set)
  | none => none

/-- Bytes a record occupies: header and body, rounded up to 16 (R266). -/
def recordSize (length : Nat) : Nat := (32 + length + 15) / 16 * 16

/-- Bytes of the tail in use: stripes not yet written (R268). -/
def Dev.tailUsed (d : Dev) : Nat :=
  d.stripes.sets.foldl (fun n t =>
    if t.2.owner ≠ d.slot then n else t.2.stripes.foldl (fun n s => match s.2.life with
      | .opened | .closed => n + s.2.used
      | _ => n) n) 0

/-- Capacity of the tail: 1,792 MiB (R281). -/
def tailSize : Nat := 1792 * 2 ^ 20

/-- The key after the last of a table. -/
def nextKey {α : Type} (t : Table α) : Nat := match t.getLast? with
  | some p => p.1 + 1
  | none => 0

/-- The stream's stripe that takes a record of `size` bytes: the open one, or the next after closing it (R267). -/
def Dev.roomFor (d : Dev) (set : Nat) (host : Bool) (size : Nat) : Option (Nat × Dev) :=
  match find d.stripes.sets set with
  | none => none
  | some t => match if host then t.hostOpen else t.backOpen with
    | none => d.openStream set host
    | some s => match find t.stripes s with
      | some x => if x.used + size ≤ (t.layoutOf x.generation).space then some (s, d) else (d.closeStripe set host).openStream set host
      | none => none

/-- A record placed at a stream's fill position and mirrored; its key. `none` = it waits for room (R21, R268). -/
def Dev.place (d : Dev) (set : Nat) (host : Bool) (r : Record) : Option (Nat × Dev) :=
  let size := recordSize r.body.length
  if d.tailUsed + size > tailSize then none else
  match d.roomFor set host size with
  | none => none
  | some (s, d) =>
    match (find d.stripes.sets set).bind fun t => find t.stripes s with
    | none => none
    | some x =>
      let k := nextKey d.stripes.records
      let d := d.onStripes fun y => { y with
        records := put y.records k { r with set := set, stripe := s, offset := x.used, generation := x.generation } }
      let d := d.onSet set fun t => { t with stripes := alter t.stripes s fun x =>
        { x with used := x.used + size, firstAt := x.firstAt.orElse fun _ => some d.now } }
      let d := d.mirrorSet set
      -- a stripe that is full is closed
      let full := match (find d.stripes.sets set) with
        | some t => match find t.stripes s with
          | some x => decide (x.used ≥ (t.layoutOf x.generation).space)
          | none => false
        | none => false
      some (k, if full then d.closeStripe set host else d)

/-- STRIPE_CLOSE_MS: CLOSE_MS has passed since the stripe's first record. -/
def execStripeCloseMs (set : Nat) (host : Bool) (now : Nat) (s : State) : Answer := s.running fun d =>
  let d := d.clock now
  let first := (find d.stripes.sets set).bind fun t => (if host then t.hostOpen else t.backOpen).bind fun s =>
    (find t.stripes s).bind Stripe.firstAt
  if first.isSome then d.closeStripe set host else d

/-! ## The extent map (R272 to R280) -/

/-- Part of a list of extents outside the block indices `lo … hi - 1` (R277). -/
def trimExtents (lo hi : Nat) : List Extent → List Extent
  | [] => []
  | e :: t =>
    let stop := e.first + e.count
    let left := if e.first < lo then [{ e with count := min stop lo - e.first }] else []
    let right := if stop > hi then
        let from' := max e.first hi
        [{ e with first := from', count := stop - from', skip := e.skip + (from' - e.first) }]
      else []
    left ++ right ++ trimExtents lo hi t

/-- An extent put in its place by FIRST. -/
def insertExtent (x : Extent) : List Extent → List Extent
  | [] => [x]
  | e :: t => if x.first < e.first then x :: e :: t else e :: insertExtent x t

/-- The granules that a block range touches. -/
def granulesOf (lba blocks : Nat) : List Nat :=
  if blocks = 0 then [] else (List.range ((lba + blocks - 1) / 256 - lba / 256 + 1)).map fun i => lba / 256 + i

/-- The block indices of a granule inside a range: first and past the last. -/
def within (g lba blocks : Nat) : Nat × Nat := (max lba (256 * g) - 256 * g, min (lba + blocks) (256 * g + 256) - 256 * g)

/-- One change laid over a granule's extents. -/
def overlay (g : Nat) (records : Table Record) (l : List Extent) : Change → List Extent
  | .append k lba blocks =>
    let (lo, hi) := within g lba blocks
    let n := match find records k with
      | some r => r.blocks
      | none => blocks
    if lo < hi then
      insertExtent { first := lo, count := hi - lo, skip := 256 * g + lo - lba, streamBlocks := n, record := k } (trimExtents lo hi l)
    else l
  | .unmap lba blocks =>
    let (lo, hi) := within g lba blocks
    if lo < hi then trimExtents lo hi l else l

/-- LBA range of a change. -/
def Change.range : Change → Nat × Nat
  | .append _ lba n => (lba, n)
  | .unmap lba n => (lba, n)

/-- A directory's body: header and extents (R274). -/
def directoryBody (records : Table Record) (jseq : Nat) (l : List Extent) : Bytes :=
  leBytes 2 l.length ++ leBytes 2 (l.foldl (fun n e => n + e.count) 0) ++ zeros 4 ++ leBytes 8 jseq ++
  (l.map fun e =>
    let (s, o, g, n) := match find records e.record with
      | some r => (r.stripe, r.offset, r.generation, r.body.length)
      | none => (0, 0, 0, 0)
    leBytes 4 s ++ leBytes 3 o ++ leBytes 1 (g % 2) ++ leBytes 1 e.first ++ leBytes 1 e.count ++ leBytes 1 e.skip ++
      leBytes 1 e.streamBlocks ++ leBytes 4 n).flatten

/-- A granule's new directory written to the BACKGROUND stream and its entry switched, under MAP_COMMIT (R277). -/
def Dev.commitGranule (d : Dev) (nsid g : Nat) (l : List Extent) : Option Dev :=
  match find d.stripes.namespaces nsid with
  | none => some d
  | some n =>
    let jseq := d.stripes.nextJseq
    let dirty (n : Namespace) : Namespace :=
      { n with dirty := if (find n.dirty (g / 256)).isSome then n.dirty else put n.dirty (g / 256) d.now }
    if l.isEmpty then
      some ((d.journal n.set (.mapCommit nsid g)).onNs nsid fun n => dirty { n with granules := drop n.granules g })
    else
      let body := directoryBody d.stripes.records jseq l
      match d.place n.set false (Record.fresh n.set .directory nsid g body) with
      | none => none
      | some (k, d) =>
        let d := d.journal n.set (.mapCommit nsid g)
        some (d.onNs nsid fun n => dirty { n with granules := put n.granules g { directory := k, jseq := jseq, extents := l } })

/-- Pages of a namespace that hold a mapped granule. -/
def Namespace.pages (n : Namespace) : List Nat := (n.granules.map fun g => g.1 / 256).eraseDups

/-- Map pages in use: those of every namespace on the shelf, and of the deleted ones whose map is still held (R264, R272). -/
def Dev.pagesUsed (d : Dev) : Nat :=
  let sum (l : Table Namespace) : Nat := l.foldl (fun k n => k + n.2.pages.length) 0
  d.peer.sets.foldl (fun k x => k + sum x.2.spaces) (sum d.stripes.namespaces + sum d.stripes.releasing)

/-- Pages of a namespace that an append's blocks lie in. -/
def pagesOf (nsid lba blocks : Nat) : List (Nat × Nat) := (granulesOf lba blocks).map fun g => (nsid, g / 256)

/-- Appends whose map commit is to come: those sealed and not yet applied, and those of activations that have not sealed (R280). -/
def Dev.pagesPending (d : Dev) : List (Nat × Nat) :=
  (d.stripes.seals.map fun s => (s.changes.map fun c => match c with
    | .append _ lba n => pagesOf s.nsid lba n
    | .unmap _ _ => []).flatten).flatten ++
  (d.chanters.threads.map fun a => (a.2.pendings.map fun p => match p with
    | .append _ lba n => pagesOf a.2.nsid lba n
    | .unmap _ _ => []).flatten).flatten

/-- Pages that those appends will allocate. -/
def Dev.pagesWanted (d : Dev) : List (Nat × Nat) :=
  d.pagesPending.eraseDups.filter fun p => match find d.stripes.namespaces p.1 with
    | some n => !(n.granules.any fun g => g.1 / 256 == p.2)
    | none => false

/-- PAGES_RESERVED (R280). -/
def Dev.pagesReserved (d : Dev) : Nat := d.pagesWanted.length

/-- A page of a namespace is allocated. -/
def Namespace.hasPage (n : Namespace) (page : Nat) : Bool := n.granules.any fun g => g.1 / 256 == page

/-- The pool cannot reserve the pages of a new append; MAP_FULL posted once each time the condition recurs (R280). -/
def Dev.reservePages (d : Dev) (nsid lba blocks : Nat) : Bool × Dev :=
  match find d.stripes.namespaces nsid with
  | none => (true, d)
  | some n =>
    let new := ((granulesOf lba blocks).map (· / 256)).eraseDups.filter fun p => !n.hasPage p && !d.pagesWanted.contains (nsid, p)
    if new.isEmpty || d.pagesUsed + d.pagesReserved + new.length ≤ 2 ^ 23 then (true, d.onStripes fun x => { x with mapFull := false })
    else if d.stripes.mapFull then (false, d)
    else (false, (d.onStripes fun x => { x with mapFull := true }).post Cls.set 0x35 n.set [b4 d.pagesReserved, b4 new.length])

/-- Where a logical block's data stands (R275, R312). -/
inductive Resolved where
  | unwritten
  | lost
  | stream (record block : Nat)
  deriving DecidableEq, Repr

/-- The newest unapplied seal's word on a block. -/
def tailLookup (seals : List Seal) (nsid lba : Nat) : Option Resolved :=
  seals.reverse.findSome? fun s =>
    if s.nsid ≠ nsid then none else s.changes.reverse.findSome? fun c => match c with
      | .append k l n => if l ≤ lba && lba < l + n then some (.stream k (lba - l)) else none
      | .unmap l n => if l ≤ lba && lba < l + n then some .unwritten else none

/-- Data units of a stripe that a record's bytes occupy. -/
def Record.units (r : Record) : List Nat :=
  let a := r.offset / unitBytes
  let b := (r.offset + recordSize r.body.length - 1) / unitBytes
  (List.range (b - a + 1)).map fun i => a + i

/-- A record touches a data unit that a PHYSICAL entry marks lost. -/
def Record.touches (r : Record) (l : Loss) : Bool :=
  !l.logical && l.first == r.stripe && l.generation == r.generation && r.units.any fun u => bitOf l.units u

/-- A block resolved: the loss log first, then the tail index, then the map. [log 78: DEDUCED] -/
def Dev.resolve (d : Dev) (nsid lba : Nat) : Resolved :=
  match find d.stripes.namespaces nsid with
  | none => .unwritten
  | some n =>
    let losses := match find d.stripes.sets n.set with
      | some t => t.losses
      | none => []
    if losses.any fun l => l.logical && l.nsid == nsid && decide (l.first ≤ lba) && decide (lba < l.first + l.count) then .lost else
    match tailLookup d.stripes.seals nsid lba with
    | some r => r
    | none =>
      match find n.granules (lba / 256) with
      | none => .unwritten
      | some g => match g.extents.find? fun e => e.first ≤ lba % 256 && lba % 256 < e.first + e.count with
        | none => .unwritten
        | some e => match find d.stripes.records e.record with
          | none => .unwritten
          | some r => if losses.any r.touches then .lost else .stream e.record (e.skip + lba % 256 - e.first)

/-! ## Seals and map commits (R276, R277) -/

/-- The stripe a seal names: the open HOST stripe, one opened for it, or the last HOST stripe. -/
def Dev.commitStripe (d : Dev) (set : Nat) : Nat × Dev :=
  match (find d.stripes.sets set).bind StripeSet.hostOpen with
  | some s => (s, d)
  | none => match d.openStream set true with
    | some (s, d) => (s, d)
    | none => (((find d.stripes.sets set).bind fun t => (t.stripes.filter fun s => s.2.host).getLast?.map Prod.fst).getD 0, d)

/-- An activation's changes sealed in one journal record; the commit stripe is closed at once where `force` (R142, R276). -/
def Dev.seal (d : Dev) (seq nsid : Nat) (changes : List Change) (force : Bool) : Dev :=
  match find d.stripes.namespaces nsid with
  | none => d
  | some n =>
    if changes.isEmpty then d else
    let (s, d) := d.commitStripe n.set
    let q := (((find d.stripes.sets n.set).bind fun t => find t.stripes s).map Stripe.seq).getD 0
    let d := d.journal n.set (.seal seq s changes.length)
    let d := d.onStripes fun x => { x with
      seals := x.seals ++ [{ seq := seq, set := n.set, nsid := nsid, stripe := s, stripeSeq := q, changes := changes }] }
    let d := d.mirrorSet n.set
    if force then d.closeStripe n.set true else d

/-- Every append in a stripe is sealed, or discarded with its activation. [log 68: DEDUCED] -/
def Dev.appendsSettled (d : Dev) (set s : Nat) : Bool :=
  d.chanters.threads.all fun a => a.2.pendings.all fun p => match p with
    | .append k _ _ => match find d.stripes.records k with
      | some r => !(r.set == set && r.stripe == s)
      | none => true
    | .unmap _ _ => true

/-- A LOGICAL entry less the blocks of a range (R312). -/
def Loss.without (l : Loss) (nsid lba blocks : Nat) : List Loss :=
  if !l.logical || l.nsid ≠ nsid then [l] else
  let stop := l.first + l.count
  (if l.first < lba then [{ l with count := min stop lba - l.first }] else []) ++
  (if stop > lba + blocks then
    let from' := max l.first (lba + blocks)
    [{ l with first := from', count := stop - from' }] else [])

/-- One seal applied granule by granule. -/
def Dev.applySeal (d : Dev) (s : Seal) : Option Dev :=
  let touched := (s.changes.map fun c => granulesOf c.range.1 c.range.2).flatten.eraseDups
  let d := touched.foldl (fun d g => d.bind fun d =>
    let old := ((find d.stripes.namespaces s.nsid).bind fun n => find n.granules g).map Granule.extents |>.getD []
    d.commitGranule s.nsid g (s.changes.foldl (overlay g d.stripes.records) old)) (some d)
  d.map fun d => d.onSet s.set fun t => { t with
    losses := s.changes.foldl (fun l c => (l.map fun x => x.without s.nsid c.range.1 c.range.2).flatten) t.losses }

/-- A HOST stripe may be map-committed (R277). -/
def Dev.mayCommit (d : Dev) (set s : Nat) : Bool :=
  match find d.stripes.sets set with
  | none => false
  | some t => match find t.stripes s with
    | none => false
    | some x =>
      x.host && decide (x.life = .written) &&
      (t.stripes.all fun y => !y.2.host || decide (y.2.seq ≥ x.seq) || decide (y.2.life = .committed)) && d.appendsSettled set s

/-! ### Zones settled (R292, R295) -/

/-- The stripe that holds a record has been written. -/
def Dev.durable (d : Dev) (r : Record) : Bool :=
  match (find d.stripes.sets r.set).bind fun t => find t.stripes r.stripe with
  | some x => decide (x.life = .written) || decide (x.life = .committed)
  | none => false

/-- Whether a record is live: some extent, map entry or root names it; of a root page, the newest that has been written, and those after
it. A ROOT_PAGE record stands here under the namespace whose pages it roots, though its header gives NSID 0 (R266). -/
def Dev.live (d : Dev) (k : Nat) (r : Record) : Bool :=
  match find d.stripes.namespaces r.nsid with
  | none => false
  | some n => match r.kind with
    | .stream => (n.granules.any fun g => g.2.extents.any fun e => e.record == k) ||
        d.stripes.seals.any fun s => s.changes.any fun c => match c with
          | .append j _ _ => j == k
          | _ => false
    | .directory => n.granules.any fun g => g.2.directory == k
    | .mapPage => n.roots.any fun p => p.2 == k
    | .rootPage => !(d.stripes.records.any fun j => decide (j.2.kind = .rootPage) && j.2.nsid == r.nsid && j.2.first == r.first &&
        decide (k < j.1) && d.durable j.2)

/-- LIVE_BLOCKS of a zone of a set. -/
def Dev.liveBlocks (d : Dev) (set zone : Nat) : Nat :=
  d.stripes.namespaces.foldl (fun n x => if x.2.set ≠ set then n else
    x.2.granules.foldl (fun n g => g.2.extents.foldl (fun n e => match find d.stripes.records e.record with
      | some r => if r.stripe / 1024 = zone then n + e.count else n
      | none => n) n) n) 0

/-- LIVE_META of a zone of a set. -/
def Dev.liveMeta (d : Dev) (set zone : Nat) : Nat :=
  (d.stripes.records.filter fun r => r.2.set == set && r.2.stripe / 1024 == zone && decide (r.2.kind ≠ .stream) && d.live r.1 r.2).length

/-- Whether some record of a zone is still named by a seal or an activation. [log 79: DEDUCED] -/
def Dev.zoneAwaited (d : Dev) (set zone : Nat) : Bool :=
  let here (k : Nat) : Bool := match find d.stripes.records k with
    | some r => r.set == set && r.stripe / 1024 == zone
    | none => false
  (d.stripes.seals.any fun s => s.changes.any fun c => match c with
    | .append k _ _ => here k
    | _ => false) ||
  d.chanters.threads.any fun a => a.2.pendings.any fun p => match p with
    | .append k _ _ => here k
    | _ => false

/-- FULL zones marked as such, and FULL or CLEANING zones with nothing live moved to PENDING_FREE. [log 79: DEDUCED] -/
def Dev.settleZones (d : Dev) (set : Nat) : Dev :=
  match find d.stripes.sets set with
  | none => d
  | some t =>
    let new := mapValues t.zones fun z x =>
      let here := t.inZone z
      let done := here.length ≥ 1024 && here.all fun s => decide (s.2.life = .written) || decide (s.2.life = .committed)
      let x := if done && decide (x.state = .filling) then { x with state := .full } else x
      let idle := decide (x.state = .full) || decide (x.state = .cleaning)
      if idle && d.liveBlocks set z == 0 && d.liveMeta set z == 0 && !d.zoneAwaited set z then { x with state := .pendingFree } else x
    d.onSet set fun t => { t with zones := new }

/-- MAP_COMMIT: the seals whose commit stripe it is are applied in SEAL order; the stripe is committed (R277). -/
def Dev.mapCommit (d : Dev) (set s : Nat) : Dev :=
  if !d.mayCommit set s then d else
  let mine := d.stripes.seals.filter fun x => x.set == set && x.stripe == s
  match mine.foldl (fun d x => d.bind fun d => d.applySeal x) (some d) with
  | none => d
  | some e =>
    let seqs := mine.map Seal.seq
    let q := (((find e.stripes.sets set).bind fun t => find t.stripes s).map Stripe.seq).getD 0
    let e := e.onStripes fun x => { x with seals := x.seals.filter fun y => !(y.set == set && y.stripe == s) }
    let e := e.journal set (.stripeCommitted s q) false
    let e := e.onSet set fun t => { t with stripes := alter t.stripes s fun x => { x with life := .committed } }
    let e := e.retire fun r => r.set == set && match r.kind with
      | .append _ _ _ k _ _ a => seqs.contains a || k == s
      | .unmap _ _ _ a => seqs.contains a
      | .seal a _ _ => seqs.contains a
      | .stripeWritten k _ _ => k == s
      | _ => false
    (e.settleZones set).settleFlushes

/-- MAP_COMMIT. -/
def execMapCommit (set stripe now : Nat) (s : State) : Answer := s.running fun d => (d.clock now).mapCommit set stripe

/-! ## Stripes written (R268, R278, R284) -/

/-- A relocated copy switched in where the directory, map entry or root still names the source (R278). -/
def Dev.switchCopy (d : Dev) (k : Nat) (r : Record) (copy : Nat) : Dev :=
  let zone := r.stripe / 1024
  let changed (page : Nat) (d : Dev) : Dev :=
    (d.onNs r.nsid fun n => { n with dirty := if (find n.dirty page).isSome then n.dirty else put n.dirty page d.now }).onSet r.set fun t =>
      { t with zones := alter t.zones zone fun z =>
        { z with pages := if z.pages.contains (r.nsid, page) then z.pages else (r.nsid, page) :: z.pages } }
  let d := if d.live k r then
    match r.kind with
    | .stream =>
      let pages := match find d.stripes.namespaces r.nsid with
        | some n => (n.granules.filterMap fun (g : Nat × Granule) =>
            if g.2.extents.any fun e => e.record == k then some (g.1 / 256) else none).eraseDups
        | none => []
      let d := d.onNs r.nsid fun n => { n with granules := mapValues n.granules fun _ g =>
        { g with extents := g.extents.map fun e => if e.record = k then { e with record := copy } else e } }
      pages.foldl (fun d p => changed p d) d
    | .directory =>
      changed (r.first / 256) (d.onNs r.nsid fun n => { n with granules := alter n.granules r.first fun g =>
        if g.directory = k then { g with directory := copy } else g })
    | .mapPage => d.onNs r.nsid fun n => { n with roots := mapValues n.roots fun _ x => if x = k then copy else x }
    | .rootPage => d
  else d
  d.onStripes fun x => { x with records := alter x.records k fun r => { r with movingTo := none } }

/-- A checkpointed page's root entry updated once its stripe is written: PAGE_CKPT, and MAP_COMMITs of the page retire. -/
def Dev.pageDurable (d : Dev) (k : Nat) (r : Record) : Dev :=
  let page := r.first
  let later := match find d.stripes.namespaces r.nsid with
    | some n => n.granules.any fun g => g.1 / 256 == page && decide (g.2.jseq ≥ r.jseq)
    | none => false
  let d := d.onNs r.nsid fun n => { n with roots := put n.roots page k, dirty := if later then n.dirty else drop n.dirty page }
  let d := d.journal r.set (.pageCkpt r.nsid page) false
  let d := d.retire fun j => decide (j.jseq < r.jseq) && match j.kind with
    | .mapCommit n g => n == r.nsid && g / 256 == page
    | _ => false
  match d.place r.set false (Record.fresh r.set .rootPage r.nsid (page / 256) (zeros 4096)) with
  | some (_, d) => d
  | none => d

/-- A changed page has no durable checkpoint yet. -/
def Dev.pageOpen (d : Dev) (nsid page : Nat) : Bool := match find d.stripes.namespaces nsid with
  | some n => (find n.dirty page).isSome
  | none => false

/-- A stripe all of whose unit writes are durable: STRIPE_WRITTEN, relocated copies switched, pages checkpointed. -/
def Dev.stripeWritten (d : Dev) (set s : Nat) : Dev :=
  match (find d.stripes.sets set).bind fun t => find t.stripes s with
  | none => d
  | some x =>
    let d := d.onSet set fun t => { t with stripes := alter t.stripes s fun x =>
      { x with life := if x.host then .written else .committed, retried := [] } }
    let d := d.journal set (.stripeWritten s x.seq x.host) x.host
    let here := d.stripes.records.filter fun r => r.2.set == set && r.2.stripe == s
    let d := here.foldl (fun d r => if r.2.kind = .mapPage && r.2.jseq ≠ 0 then d.pageDurable r.1 r.2 else d) d
    let roots := here.filter fun r => decide (r.2.kind = .rootPage)
    let d := d.onSet set fun t => { t with zones := mapValues t.zones fun _ z =>
      { z with pages := z.pages.filter fun p => !(roots.any fun r => r.2.nsid == p.1 && r.2.first == p.2 / 256) || d.pageOpen p.1 p.2 } }
    let moved := d.stripes.records.filter fun r => match r.2.movingTo with
      | some k => here.any fun h => h.1 == k
      | none => false
    let d := moved.foldl (fun d r => match r.2.movingTo with
      | some k => d.switchCopy r.1 r.2 k
      | none => d) d
    d.settleZones set

/-- One member's unit write of a stripe is no longer awaited: durable, or the member is gone. -/
def Dev.unitDone (d : Dev) (set s i : Nat) : Dev :=
  match (find d.stripes.sets set).bind fun t => find t.stripes s with
  | none => d
  | some x =>
    if x.life ≠ .closed then d else
    let left := x.unwritten.erase i
    let d := d.onSet set fun t => { t with stripes := alter t.stripes s fun x => { x with unwritten := left } }
    if left.isEmpty then d.stripeWritten set s else d

/-! ## Losses (R310 to R313) -/

/-- A stripe that a member's rebuild has still to reach: written before it joined, at or above its rebuild position (R300, R308). -/
def Member.unbuilt (m : Member) (position s seq : Nat) : Bool :=
  decide (m.state = .rebuilding) && decide (seq < m.joinSeq) && !m.tail.contains seq && decide (position ≤ s)

/-- A RETIRING drive holds no unit of a stripe (R508). -/
def Member.skips (m : Member) (seq : Nat) : Bool := m.skipped.any fun r => decide (r.1 ≤ seq) && decide (seq < r.2)

/-- The unit of a member of a layout of a set is unavailable for a stripe. While a RETIRING drive is being replaced its unit serves. -/
def Dev.unavailable (d : Dev) (set : Nat) (t : StripeSet) (l : Layout) (s seq i : Nat) : Bool := match find l.members i with
  | some m => match m.state with
    | .active => false
    | .missing | .failed => true
    | .rebuilding => m.unbuilt (d.rebuildPosition set t m) s seq && (m.retiringBay.isNone || m.skips seq)
    | .retiring => m.skips seq
  | none => true

/-- Lost data units of a stripe, as a bitmap, where a test says which members' units are unavailable (R310). -/
def Layout.lostUnits (l : Layout) (s : Nat) (gone : Nat → Bool) : Nat := match l.type with
  | .stripe2p =>
    if ((List.range l.width).filter gone).length ≤ 2 then 0 else bitmap l.units fun j => (l.unitMembers s j).any gone
  | _ => bitmap l.units fun j => (l.unitMembers s j).all gone

/-- An entry put into a loss log of at most 65,536 entries: past that, a LOGICAL entry widens the nearest entry of its
namespace, and the log is OVERSTATED. [log 78: DEDUCED] -/
def Dev.addLoss (d : Dev) (set : Nat) (e : Loss) : Dev :=
  match find d.stripes.sets set with
  | none => d
  | some t =>
    if t.losses.length < 65536 then d.onSet set fun t => { t with losses := t.losses ++ [e] } else
    let gap (x : Loss) : Nat := if x.first ≤ e.first then e.first - (x.first + x.count) else x.first - (e.first + e.count)
    let near := t.losses.foldl (fun best x => if !x.logical || x.nsid ≠ e.nsid then best else match best with
      | some b => if gap x < gap b then some x else best
      | none => some x) none
    match near with
    | none => d
    | some x =>
      let lo := min x.first e.first
      let hi := max (x.first + x.count) (e.first + e.count)
      let l := t.losses.map fun y => if y = x then { y with first := lo, count := hi - lo } else y
      let d := if t.overstated then d else d.post Cls.set 0x0B set [b4 t.losses.length]
      d.onSet set fun t => { t with losses := l, overstated := true }

/-- Stripes of a set beyond redundancy entered as PHYSICAL losses (R310). -/
def Dev.noteLosses (d : Dev) (set : Nat) : Dev :=
  match find d.stripes.sets set with
  | none => d
  | some t =>
    t.stripes.foldl (fun d s =>
      let life := decide (s.2.life = .written) || decide (s.2.life = .committed)
      let l := t.layoutOf s.2.generation
      let u := l.lostUnits s.1 (d.unavailable set t l s.1 s.2.seq)
      let known := t.losses.any fun x => !x.logical && x.first == s.1 && x.generation == s.2.generation
      if !life || u = 0 || known then d else
      let cause := match l.type with
        | .stripe2p => 1
        | _ => 2
      let e : Loss := {
        logical := false, cause := cause, nsid := 0, first := s.1, generation := s.2.generation, count := 0, units := u
        breath := d.breath }
      (d.addLoss set e).onSet set fun t => { t with
        lostThisSecond := t.lostThisSecond + 1, scrubLost := t.scrubLost + 1
        layout := { t.layout with members := mapValues t.layout.members fun _ m =>
          if m.state = .rebuilding then { m with stripesLost := m.stripesLost + 1 } else m } }) d

/-- A member lost, with the stripes its loss takes beyond redundancy. -/
def Dev.memberLost (d : Dev) (set i bay : Nat) (new : MemberState) (cause : Nat) : Dev :=
  -- stripes held in the tail are written without the member
  let held : List (Nat × Nat) := match find d.stripes.sets set with
    | none => []
    | some t => t.stripes.filterMap fun s => ((t.layoutOf s.2.generation).indexOn bay).bind fun j =>
        if s.2.unwritten.contains j then some (s.1, j) else none
  let d := (d.loseMember set i bay new cause).noteLosses set
  (held.foldl (fun d h => d.unitDone set h.1 h.2) d).noSpares

/-- STRIPE_LOST: the stripes lost in the last second. -/
def execStripeLost (set : Nat) (s : State) : Answer := s.act fun d =>
  match find d.stripes.sets set with
  | some t =>
    if t.lostThisSecond = 0 then d else
      (d.onSet set fun t => { t with lostThisSecond := 0 }).post Cls.set 0x0A set [b4 t.lostThisSecond]
  | none => d

/-- LOGICAL entries for the blocks of a granule that some extents cover. [log 78: DEDUCED] -/
def logicalLosses (nsid g cause breath : Nat) (l : List Extent) : List Loss :=
  l.map fun e => { logical := true, cause := cause, nsid := nsid, first := 256 * g + e.first, generation := 0, count := e.count,
                   units := 0, breath := breath }

/-- The loss walk over one granule: extents whose records are lost are removed by a map commit and entered. [log 78: DEDUCED] -/
def Dev.walkGranule (d : Dev) (set nsid g : Nat) (physical : List Loss) : Dev :=
  match (find d.stripes.namespaces nsid).bind fun n => find n.granules g with
  | none => d
  | some x =>
    let gone (k : Nat) : Bool := match find d.stripes.records k with
      | some r => physical.any r.touches
      | none => false
    let dirLost := gone x.directory
    let lost := if dirLost then x.extents else x.extents.filter fun e => gone e.record
    if lost.isEmpty then d else
    let cause := if dirLost then 3 else (physical.head?.map Loss.cause).getD 1
    let kept := if dirLost then [] else x.extents.filter fun e => !gone e.record
    match d.commitGranule nsid g kept with
    | none => d
    | some d => (logicalLosses nsid g cause d.breath lost).foldl (fun d e => d.addLoss set e) d

/-- LOSS_WALK_DONE: the walk has passed every allocated page; PHYSICAL entries give way to LOGICAL ones (R311). [log 80: DESIGN CHOICE] -/
def execLossWalkDone (set now : Nat) (s : State) : Answer := s.running fun d =>
  let d := d.clock now
  match find d.stripes.sets set with
  | none => d
  | some t =>
    let physical := t.losses.filter fun l => !l.logical
    if physical.isEmpty then d else
    let d := (d.namespacesOn set).foldl (fun d n => match find d.stripes.namespaces n with
      | some ns => ns.granules.foldl (fun d g => d.walkGranule set n g.1 physical) d
      | none => d) d
    (d.onSet set fun t => { t with losses := t.losses.filter fun l => l.logical }).settleZones set

/-! ## Checkpoints (R284) and freed zones (R295) -/

/-- PAGE_CKPT: a changed map page written as a MAP_PAGE record; its root entry follows once the stripe is written. -/
def execPageCkpt (nsid page now : Nat) (s : State) : Answer := s.running fun d =>
  let d := d.clock now
  match find d.stripes.namespaces nsid with
  | none => d
  | some n =>
    if (find n.dirty page).isNone then d else
    match d.place n.set false { Record.fresh n.set .mapPage nsid page (zeros 4096) with jseq := d.stripes.nextJseq } with
    | some (_, d) => d
    | none => d

/-- ZONE_FREE: a PENDING_FREE zone with every checkpoint durable becomes FREE (R295). [log 79: DEDUCED] -/
def execZoneFree (set zone : Nat) (s : State) : Answer := s.running fun d =>
  match find d.stripes.sets set with
  | none => d
  | some t => match find t.zones zone with
    | some z =>
      if z.state ≠ .pendingFree || !z.pages.isEmpty then d else
      let d := d.journal set (.zoneFree zone) false
      let d := d.onSet set fun t => { t with
        zones := drop t.zones zone, retest := true, stripes := keepIf t.stripes fun s _ => s / 1024 != zone,
        losses := t.losses.filter fun l => l.logical || l.first / 1024 != zone || l.generation != z.generation }
      let d := d.onStripes fun x => { x with records := keepIf x.records fun _ r => !(r.set == set && r.stripe / 1024 == zone) }
      (d.noteSpace set).judgeSet set
    | none => d

/-! ## Collection (R293, R294, R319) -/

/-- The rebuild of a member is unfinished in a zone of its set (R296). -/
def Dev.rebuildIn (d : Dev) (set : Nat) (t : StripeSet) (zone : Nat) : Bool :=
  (t.inZone zone).any fun s => (t.layoutOf s.2.generation).members.any fun m =>
    m.2.unbuilt (d.rebuildPosition set t m.2) s.1 s.2.seq

/-- Whether ordinary collection runs: started below GC_START_PCT of the zones, until twice that level (R294). -/
def Dev.collects (d : Dev) (set : Nat) (t : StripeSet) : Bool :=
  let free := t.freeZones * 100
  let level := d.gcStart set * t.layout.zones
  decide (free < level) || (t.collecting && decide (free < 2 * level))

/-- The lowest FULL zone of the layout that a reshape empties (R319). -/
def StripeSet.migrating (t : StripeSet) (full : Table Zone) : Option Nat :=
  if t.state = .failed then none else t.old.bind fun l => (full.find? fun z => z.2.generation == l.generation).map Prod.fst

/-- The zone collection takes next: the one CLEANING; else, during a reshape, the lowest FULL zone of the old layout; else, where
collection runs, the FULL zone with the least live, then the lowest first STRIPE_SEQ. -/
def Dev.victim (d : Dev) (set : Nat) (t : StripeSet) : Option Nat :=
  match t.zones.find? fun z => decide (z.2.state = .cleaning) && d.stripes.records.any fun r =>
      r.2.set == set && r.2.stripe / 1024 == z.1 && r.2.movingTo.isNone && d.live r.1 r.2 with
  | some z => some z.1
  | none =>
    let full := t.zones.filter fun z => decide (z.2.state = .full) && !(decide (3 ≤ t.freeZones) && d.rebuildIn set t z.1)
    match t.migrating full with
    | some z => some z
    | none =>
      if !t.collecting then none else
      let weight (z : Nat × Zone) : Nat × Nat := (d.liveBlocks set z.1 + d.liveMeta set z.1, z.2.firstSeq)
      (full.foldl (fun best z => match best with
        | some b => if (weight z).1 < (weight b).1 || ((weight z).1 == (weight b).1 && decide ((weight z).2 < (weight b).2)) then some z else best
        | none => some z) none).map Prod.fst

/-- A zone of a set holds a dead record. -/
def Dev.hasDead (d : Dev) (set zone : Nat) : Bool :=
  d.stripes.records.any fun r => r.2.set == set && r.2.stripe / 1024 == zone && !d.live r.1 r.2

/-- COLLECTION: one zone cleaned: every live record in it appended, unchanged, to the BACKGROUND stream. -/
def execCollection (set now : Nat) (s : State) : Answer := s.running fun d =>
  let d := d.clock now
  match find d.stripes.sets set with
  | none => d
  | some t =>
    let runs := d.collects set t
    let t := { t with collecting := runs }
    let d := d.onSet set fun _ => t
    if (!runs && t.old.isNone) || t.owner ≠ d.slot then d else
    let anyDead := t.zones.any fun z => decide (z.2.state = .full) && d.hasDead set z.1
    if t.old.isNone && !anyDead then
      if t.exhaustedPosted || t.freeZones > 2 then d else
        (d.onSet set fun t => { t with exhaustedPosted := true }).post Cls.set 0x34 set
          [b8 (t.zones.foldl (fun n z => n + d.liveBlocks set z.1) 0)]
    else match d.victim set t with
      | none => d
      | some z =>
        let d := d.onSet set fun t => { t with zones := alter t.zones z fun x => { x with state := .cleaning } }
        let live := d.stripes.records.filter fun r =>
          r.2.set == set && r.2.stripe / 1024 == z && r.2.movingTo.isNone && d.live r.1 r.2
        let d := live.foldl (fun d r => match d.place set false { r.2 with movingTo := none } with
          | some (k, d) =>
            let d := d.onStripes fun x => { x with records := alter x.records r.1 fun y => { y with movingTo := some k } }
            d.onSet set fun t => { t with gcBytes := (t.gcBytes + recordSize r.2.body.length) % 2 ^ 64 }
          | none => d) d
        d.settleZones set

/-! ## Rebuild and scrub (R308, R323) -/

/-- Stripes of the tail whose writes are under way are written to a member that has joined, too (R308). -/
def Dev.writeTailTo (d : Dev) (set bay : Nat) : Dev :=
  match find d.stripes.sets set with
  | none => d
  | some t => t.stripes.foldl (fun d s => match (t.layoutOf s.2.generation).indexOn bay with
      | some i =>
        if s.2.life ≠ StripeLife.closed then d else
        (d.onSet set fun t => { t with stripes := alter t.stripes s.1 fun x => { x with unwritten := x.unwritten ++ [i] } }).issue bay
          (.unitWrite set s.1 i)
      | none => d) d

/-- A spare takes a member's index in every layout that has the member, and becomes REBUILDING (R306). -/
def Dev.joinSpare (d : Dev) (set i bay : Nat) : Dev :=
  let d := d.onStripes fun x => { x with spares := drop x.spares bay }
  let d := d.onSet set fun t => match find t.layout.members i with
    | none => t
    | some x =>
    let join (l : Layout) : Layout := { l with members := mapValues l.members fun _ m => if !m.same x then m else
      { bay := bay, state := .rebuilding, joinSeq := t.nextSeq, joinedAt := d.now, skipped := m.skipped,
        tail := t.seqsWhere fun x => decide (x.life = .opened) || decide (x.life = .closed),
        retiringBay := if m.state = .retiring then some m.bay else none, sinceBreath := m.sinceBreath,
        stripesLost := (t.losses.filter fun x => !x.logical).length } }
    { t with layout := join t.layout, old := t.old.map join, retest := true }
  let d := (d.writeLabels set).writeTailTo set bay
  let n := match find d.stripes.sets set with
    | some t => match find t.layout.members i with
      | some m => t.rebuildStripes m
      | none => 0
    | none => 0
  (d.post Cls.set 0x08 set [b1 i, b1 bay, b8 n]).judgeSet set

/-- The spares that were chosen take their indices, and the spares of this edge are chosen for those that still wait (R306). [log 131: DEDUCED] -/
def Dev.assignSpares (d : Dev) : Dev :=
  let d := d.waiting.foldl (fun d (set, i) => match d.spareOtherThan d.stripes.freshSpares set with
    | some bay => d.joinSpare set i bay
    | none => d) d
  (d.onStripes fun x => { x with freshSpares := [] }).noSpares

/-- A set is FAILED: its rebuilds and its reshape have stopped (R304). -/
def Dev.setFailed (d : Dev) (set : Nat) : Bool := match find d.stripes.sets set with
  | some t => decide (t.state = .failed)
  | none => false

/-- REBUILD_DONE: the rebuild position has passed the last stripe (R308). [log 80: DESIGN CHOICE] -/
def execRebuildDone (set member now : Nat) (s : State) : Answer := s.running fun d =>
  let d := d.clock now
  match (find d.stripes.sets set).bind fun t => find t.layout.members member with
  | none => d
  | some m =>
    if m.state ≠ .rebuilding || d.setFailed set then d else
    let d := d.onSet set fun t => t.onServing m.bay fun m => { bay := m.bay }
    let d := match m.retiringBay with
      | some b => d.setLabel b none
      | none => d
    let d := d.post Cls.set 0x09 set [b1 member, b1 m.bay, b4 ((now - m.joinedAt) / sec), b4 m.stripesLost]
    d.judgeSet set

/-- SCRUB_PASS_DONE. [log 80: DESIGN CHOICE] -/
def execScrubPassDone (set : Nat) (s : State) : Answer := s.act fun d =>
  match find d.stripes.sets set with
  | none => d
  | some t =>
    if d.field (setAt set 0x48) 0 1 = 0 then d else
    let read := (t.stripes.filter fun s => decide (s.2.life = .written) || decide (s.2.life = .committed)).length
    (d.onSet set fun t => { t with scrubRead := 0, scrubRepaired := 0, scrubLost := 0, scrubQueue := [] }).post Cls.set 0x0E set
      [b8 read, b4 t.scrubRepaired, b4 t.scrubLost]

/-- A repair counted for the member of a bay; at ERR_LIMIT within the hour it fails (R300, R409). -/
def Dev.countRepair (d : Dev) (bay : Nat) : Dev :=
  match d.memberOf bay with
  | none => d
  | some (set, i) =>
    let d := d.onSet set fun t => t.onServing bay fun m =>
      if d.now - m.hourFrom ≥ 3600 * sec then { m with repairs := 1, hourFrom := d.now } else { m with repairs := m.repairs + 1 }
    match (find d.stripes.sets set).bind fun t => t.serving i bay with
    | some m => if m.repairs ≥ d.field (setAt set 0x30) 24 8 then d.memberLost set i bay .failed 7 else d
    | none => d

/-- A read repaired from redundancy: counted, its record relocated, the member's repairs counted towards ERR_LIMIT (R291,
R300). -/
def Dev.repaired (d : Dev) (k member : Nat) : Dev :=
  match find d.stripes.records k with
  | none => d
  | some r =>
    let d := d.count (str + 0x20)
    let d := match d.place r.set false { r with movingTo := none } with
      | some (j, d) => d.onStripes fun x => { x with records := alter x.records k fun y => { y with movingTo := some j } }
      | none => d
    let second := d.now / sec
    let d := d.onSet r.set fun t => { t with repairsUnposted := t.repairsUnposted + 1, scrubRepaired := t.scrubRepaired + 1 }
    let d := match find d.stripes.sets r.set with
      | some t =>
        if t.repairSecond = some second then d else
        (d.onSet r.set fun t => { t with repairsUnposted := 0, repairSecond := some second }).post Cls.set 0x31 r.set
          [b4 r.stripe, b1 member, b4 t.repairsUnposted]
      | none => d
    match (find d.stripes.sets r.set).bind fun t => find (t.layoutOf r.generation).members member with
    | some m => if m.lost then d else d.countRepair m.bay
    | none => d

/-- A record whose every trial failed: counted, its stripe queued for the scrub (R291). -/
def Dev.unreadable (d : Dev) (k : Nat) : Dev :=
  match find d.stripes.records k with
  | none => d
  | some r => (d.count (str + 0x24)).onSet r.set fun t =>
      { t with scrubQueue := if t.scrubQueue.contains r.stripe then t.scrubQueue else t.scrubQueue ++ [r.stripe] }

/-! ## Reshape edges (R318, R320) -/

/-- The start edge of a reshape. -/
def Dev.startReshape (d : Dev) (set : Nat) (l : Layout) : Dev :=
  let d := (d.closeStripe set true).closeStripe set false
  let d := l.members.foldl (fun d m => d.onStripes fun x => { x with spares := drop x.spares m.2.bay }) d
  let d := d.onSet set fun t => { t with
    layout := l, old := some t.layout, hostZone := none, backZone := none,
    zones := mapValues t.zones fun _ z => if z.state = .filling then { z with state := .full } else z }
  let d := d.writeLabels set
  let d := match d.openStream set true with
    | some (_, d) => d
    | none => d
  let d := match d.openStream set false with
    | some (_, d) => d
    | none => d
  let d := d.post Cls.set 0x0C set [b4 (l.generation - 1), b4 l.generation, b1 l.type.code, b1 l.width]
  (d.placeLedgers).judgeSet set

/-- A new layout on some bays: a current member's bay keeps its state. -/
def StripeSet.newLayout (t : StripeSet) (type : SetType) (red : Nat) (bays : List Nat) (capacity : Nat) : Layout :=
  let state (b : Nat) : Member := match t.layout.members.find? fun m => m.2.bay == b && !m.2.lost with
    | some m => m.2
    | none => { bay := b }
  { type := type, width := bays.length, minRedundancy := red, generation := (t.layout.generation + 1) % 65536,
    members := (List.range bays.length).map fun i => (i, state (bays.getD i 0)), stripes := stripesOf capacity,
    zones := zonesOf capacity }

/-- Effect of SET_RESHAPE: the start edge. -/
def applySetReshape (r : Rec) (d : Dev) : Dev × Nat :=
  let p := r.payload
  let n := byteAt r.entry 8
  let bays := baysOf (leAt p 4 4)
  match find d.stripes.sets n with
  | none => (d, 0)
  | some t =>
    (d.startReshape n (t.newLayout ((SetType.ofCode (byteAt p 0)).getD t.layout.type) (byteAt p 2) bays (d.leastCapacity bays)), 0)

/-- The end edge of every reshape whose old layout holds no zone that is not FREE. -/
def Dev.endReshapes (d : Dev) : Dev :=
  d.stripes.sets.foldl (fun d x => match x.2.old with
    | none => d
    | some l =>
      if x.2.state = .failed || x.2.holds l then d else
      let now := x.2.layout.members.map fun m => m.2.bay
      let released := (l.members.filterMap fun m => if m.2.lost && (d.inSet m.2.bay || (find d.stripes.spares m.2.bay).isSome) then none
        else some m.2.bay).filter fun b => !now.contains b
      let d := released.foldl (fun d b => d.zeroiseLabel x.1 x.2.identity b) d
      let d := d.onSet x.1 fun t => { t with old := none, retest := true }
      let d := (d.writeLabels x.1).post Cls.set 0x0D x.1 [b4 x.2.layout.generation, b4 (bitmap 32 fun b => released.contains b)]
      d.judgeSet x.1) d

/-- A narrowing of R314 for a set with a RETIRING member: the layout without it, or without its copy group. -/
def Dev.narrowing (d : Dev) (set : Nat) : Option Layout :=
  match find d.stripes.sets set with
  | none => none
  | some t =>
    let l := t.layout
    match l.members.find? fun m => decide (m.2.state = .retiring) with
    | none => none
    | some m =>
      if d.field (setAt set 0x30) 16 1 = 0 || t.old.isSome || t.owner ≠ d.slot || decide (t.state = .failed) ||
        decide (t.state = .formatting) || (l.members.any fun x => x.2.lost) || (d.chooseSpare set).isSome then none else
      let c := l.type.copies
      let out := match l.type with
        | .stripe2p => [m.1]
        | _ => (List.range c).map fun i => m.1 / c * c + i
      let bays := (l.members.filter fun x => !out.contains x.1).map fun x => x.2.bay
      let z := zonesOf (d.leastCapacity bays)
      if l.type.widthOk bays.length && fits t.zones.length l.units (dataUnits l.type bays.length) z (d.gcStart set) then
        some (t.newLayout l.type l.minRedundancy bays (d.leastCapacity bays))
      else none

/-- What the module does for a member that becomes RETIRING (R314): a spare, a narrowing, or NO_REMEDY. [log 127: DEDUCED] -/
def Dev.remedy (d : Dev) (set i bay : Nat) : Dev :=
  let none' := (d.chooseSpare set).isNone && (d.narrowing set).isNone
  (d.post Cls.set 0x06 set [b1 i, b1 bay, b1 (flag none')]).onControl fun c =>
    if (d.chooseSpare set).isNone && (d.narrowing set).isSome && !c.narrowing.contains set then
      { c with narrowing := c.narrowing ++ [set] } else c

/-- The remedies tested again at an edge at which a zone has become FREE, a spare has been assigned, or a lost member has been replaced or
dropped (R314). -/
def Dev.retestRemedies (d : Dev) : Dev :=
  d.stripes.sets.foldl (fun d x =>
    if !x.2.retest then d else
    let d := d.onSet x.1 fun t => { t with retest := false }
    if (d.chooseSpare x.1).isNone && (d.narrowing x.1).isSome && !d.control.narrowing.contains x.1
    then d.onControl fun c => { c with narrowing := c.narrowing ++ [x.1] } else d) d

/-! ## Recovery (R288, R289) -/

/-- Stripes of a set in order of STRIPE_SEQ that are written and not committed. -/
def StripeSet.uncommitted (t : StripeSet) : List Nat :=
  let l := t.stripes.filter fun s => s.2.host && decide (s.2.life = .written)
  (l.foldr (fun s acc =>
    let rec place (x : Nat × Stripe) : List (Nat × Stripe) → List (Nat × Stripe)
      | [] => [x]
      | y :: t => if x.2.seq ≤ y.2.seq then x :: y :: t else y :: place x t
    place s acc) []).map Prod.fst

/-- Records of a set that no seal, extent, entry or root names: the discarded appends. -/
def Dev.unsealed (d : Dev) (set : Nat) : Nat :=
  (d.stripes.journal.filter fun j => j.set == set && match j.kind with
    | .append _ _ _ _ _ _ seq => !(d.stripes.seals.any fun s => s.seq == seq) && !(d.stripes.journal.any fun k => match k.kind with
        | .seal a _ _ => a == seq
        | _ => false)
    | _ => false).length

/-- A set awaits its recovery: it has been claimed, taken over or handed over. [log 132: DEDUCED] -/
def Dev.awaitRecovery (d : Dev) (set : Nat) : Dev := d.onSet set fun t => { t with recovering := true }

/-- RECOVERY: steps 1 to 7 of R288 for an owned set that awaits it. With the ledger as the source, sealed writes whose stripe was never
written are lost and entered in the loss log (R289). [log 132: DEDUCED] -/
def execRecovery (set source now : Nat) (s : State) : Answer := s.running fun d =>
  let d := d.clock now
  match find d.stripes.sets set with
  | none => d
  | some t =>
    if t.owner ≠ d.slot || !t.recovering then d else
    let discarded := d.unsealed set
    let sealCount := (d.stripes.seals.filter fun x => x.set == set).length
    let unwritten (k : Nat) : Bool := match find d.stripes.records k with
      | some r => match find t.stripes r.stripe with
        | some x => decide (x.life = .opened) || decide (x.life = .closed)
        | none => true
      | none => true
    let lost := if source = 2 then
        (d.stripes.seals.map fun x => if x.set ≠ set then [] else x.changes.filterMap fun c => match c with
          | .append k lba n => if unwritten k then some (x.nsid, lba, n) else none
          | .unmap _ _ => none).flatten
      else []
    let d := if source = 2 then d.onStripes fun x => { x with seals := x.seals.map fun y => if y.set ≠ set then y else
        { y with changes := y.changes.filter fun c => match c with
          | .append k _ _ => !unwritten k
          | .unmap _ _ => true } } else d
    let d := lost.foldl (fun d (n, first, count) => d.addLoss set {
      logical := true, cause := 4, nsid := n, first := first, generation := 0, count := count, units := 0, breath := d.breath }) d
    let d := d.retire fun j => j.set == set && match j.kind with
      | .append _ _ _ _ _ _ seq => !(d.stripes.seals.any fun x => x.seq == seq)
      | _ => false
    let d := t.uncommitted.foldl (fun d s => d.mapCommit set s) d
    -- step 6: open stripes are closed, and every stripe not yet written is written again whole
    let d := (d.closeStripe set true).closeStripe set false
    let d := match find d.stripes.sets set with
      | some t => t.stripes.foldl (fun (d : Dev) (s : Nat × Stripe) =>
          if s.2.life = StripeLife.closed then d.writeStripe set s.1 else d) d
      | none => d
    d.onSet set fun t => { t with
      hostOpen := none, backOpen := none, recSource := source, recSeals := sealCount, recDiscarded := discarded,
      recLost := lost.foldl (fun n (l : Nat × Nat × Nat) => n + l.2.2) 0 }

/-- Step 8 of R288 for a set: each stream opened in a fresh stripe, and RECOVERY_DONE posted. -/
def Dev.recoveryDone (d : Dev) (set : Nat) : Dev :=
  match find d.stripes.sets set with
  | none => d
  | some t =>
    let d := d.onSet set fun t => { t with recovering := false }
    let d := match d.openStream set true with
      | some (_, d) => d
      | none => d
    let d := match d.openStream set false with
      | some (_, d) => d
      | none => d
    d.post Cls.set 0x37 set [b1 t.recSource, b4 t.recSeals, b4 t.recDiscarded, b8 t.recLost]

end Sys2Proof.Machine
end

