-- ==== Sys2Proof/Machine/Drives.lean ====
section
/-! DEFINITION. Drive ports and the NVMe interface (R400 to R418). -/

namespace Sys2Proof.Machine

open Sys2Proof RegisterMap

/-- Offset of a per-bay DPC register. -/
def dpcBay (bay off : Nat) : Nat := dpc + 0x1000 + bay * 0x80 + off

/-- A DRIVE event. -/
def Dev.driveEvent (d : Dev) (bay code : Nat) (data : List Item) : Dev := d.post Cls.drive code bay data

/-! ## Qualification (R402, R403) -/

/-- A bay rejected with a check's reason. -/
def Dev.rejectBay (d : Dev) (bay reason : Nat) : Dev :=
  (d.onBay bay fun b => { b with state := .rejected, reason := reason, commands := [] }).driveEvent bay 0x02 [b1 reason]

/-- This module prepares drives: slot A, or slot B whose partner is ABSENT. -/
def Dev.prepares (d : Dev) : Bool := d.slot == 0 || decide (d.peer.state = .absent)

/-- AUTO_PREPARE in force. -/
def Dev.autoPrepare (d : Dev) : Bool := d.field dpc 62 1 == 1

/-- The buffers issued to a bay: one range of bell for its rings and transfers (R401). [log 76: DESIGN CHOICE] -/
def issuedTo (bay : Nat) : List (Nat × Nat) := [(bay * 2 ^ 32, 2 ^ 28)]

/-- A bay qualified with a drive. -/
def Dev.qualifyBay (d : Dev) (bay : Nat) (drive : Drive) (speed width queues : Nat) : Dev :=
  let d := d.onBay bay fun b => { b with
    state := .qualified, reason := 0, speed := speed, width := width, queues := min 8 queues, drive := some drive
    fua := !drive.plp, issued := issuedTo bay, conditions := 0, failedPolls := 0, identifyTries := 0 }
  let d := (List.range 4).foldl (fun d _ => d.issue bay (.admin 0x0C)) (d.onBay bay fun b => { b with commands := [] })
  let others := d.stripes.labelledSpares.erase bay
  let labelled := if (find d.stripes.spares bay).isSome && drive.label.isSome then bay :: others else others
  let d := d.onStripes fun x => { x with labelledSpares := labelled }
  d.driveEvent bay 0x01 [b1 speed, b1 width, b1 (flag drive.plp), b8 drive.capacity]

/-- A drive prepared: every namespace deleted, NSID 1 created and attached to both controllers; its data and label are
gone (R403). -/
def Dev.prepare (d : Dev) (bay : Nat) (drive : Drive) (speed width queues : Nat) : Dev :=
  let d := [0x0D, 0x0D, 0x15].foldl (fun (d : Dev) op => d.emit (.nvme bay 0 (.admin op))) d
  d.qualifyBay bay { drive with label := none } speed width queues

/-- A powered bay's drive begins qualification with Identify (R402). -/
def Dev.beginQualify (d : Dev) (bay : Nat) : Dev :=
  let b : Bay := { state := .qualifying }
  ({ d with bays := put d.bays bay b }).issue bay (.admin 0x06)

/-- The admin command that follows another one in qualification: Identify, Number of Queues, the queues, the log (R405). [log 119: DEDUCED] -/
def nextAdmin : Nat → Option Nat
  | 0x06 => some 0x09
  | 0x09 => some 0x05
  | 0x05 => some 0x01
  | 0x01 => some 0x02
  | _ => none

/-- DRIVE_QUALIFY. -/
def execDriveQualify (bay : Nat) (report : DriveReport) (now : Nat) (s : State) : Answer := s.act fun d =>
  let d := d.clock now
  if (d.bay bay).state ≠ .qualifying then d else
  let d := d.onBay bay fun b => { b with speed := report.speed, width := report.width, drive := some report.drive }
  match report.failed with
  | 0 => d.qualifyBay bay report.drive report.speed report.width report.queues
  | 11 =>
    if !(report.empty || d.autoPrepare) then d.rejectBay bay 11
    else if d.prepares then d.prepare bay report.drive report.speed report.width report.queues
    else d.onBay bay fun b => { b with identifyTries := 1, queues := min 8 report.queues }
  | n => d.rejectBay bay n

/-- IDENTIFY_RETRY: the module that does not prepare reads Identify again, for up to 30 s (R403). -/
def execIdentifyRetry (bay : Nat) (conforms : Bool) (now : Nat) (s : State) : Answer := s.act fun d =>
  let d := d.clock now
  let b := d.bay bay
  if b.state ≠ .qualifying || b.identifyTries = 0 then d
  else if conforms then match b.drive with
    | some x => d.qualifyBay bay { x with label := none } b.speed b.width b.queues
    | none => d
  else if b.identifyTries ≥ 30 then d.rejectBay bay 11
  else d.onBay bay fun b => { b with identifyTries := b.identifyTries + 1 }

/-- Every bay held in REJECTED with reason 11 prepared (R403). -/
def Dev.prepareHeld (d : Dev) : Dev :=
  d.bays.foldl (fun d b =>
    if b.2.state = .rejected && b.2.reason = 11 && d.prepares then match b.2.drive with
      | some x => d.prepare b.1 x b.2.speed b.2.width b.2.queues
      | none => d
    else d) d

/-- AUTO_PREPARE: the setting has taken effect. -/
def execAutoPrepare (s : State) : Answer := s.act fun d => d.when d.autoPrepare Dev.prepareHeld

/-- LINK_TRAIN_TIMEOUT. -/
def execLinkTrainTimeout (bay : Nat) (s : State) : Answer := s.act fun d =>
  d.when (decide ((d.bay bay).state = .qualifying)) fun d => d.rejectBay bay 1

/-- CSTS_READY_TIMEOUT. -/
def execCstsReadyTimeout (bay : Nat) (s : State) : Answer := s.act fun d =>
  d.when (decide ((d.bay bay).state = .qualifying)) fun d => d.rejectBay bay 2

/-! ## Failures (R409 to R413) -/

/-- The member a bay serves is lost: the member itself, or a RETIRING drive under replacement (which leaves no state). -/
def Dev.bayLost (d : Dev) (bay : Nat) (new : MemberState) (cause : Nat) : Dev :=
  match d.memberOf bay with
  | some (set, i) => d.memberLost set i bay new cause
  | none => match d.retiringOf bay with
    | some (set, _) => d.onSet set fun t =>
        let g (l : Layout) : Layout :=
          { l with members := mapValues l.members fun _ m => if m.retiringBay = some bay then { m with retiringBay := none } else m }
        { t with layout := g t.layout, old := t.old.map g }
    | none => d

/-- Every command of a bay ended; the CIDs of its reads are quarantined (R409, R410). -/
def Dev.endCommands (d : Dev) (bay : Nat) : Dev :=
  d.onBay bay fun b => { b with
    quarantined := b.quarantined ++ (b.commands.filter fun c => c.2.isRead).map Prod.fst, commands := [], waiting := [] }

/-- A bay FAULTED with DRIVE_FAILED, its member lost (R410, R413). [log 77: DEDUCED] -/
def Dev.faultBay (d : Dev) (bay cause : Nat) (new : MemberState) : Dev :=
  let st := (d.bay bay).state
  if st ≠ .qualified && st ≠ .linkLost then d else
  let d := (d.endCommands bay).onBay bay fun b => { b with state := .faulted, writeFailures := satAdd max32 b.writeFailures 1 }
  (d.driveEvent bay 0x07 [b1 cause]).bayLost bay new cause

/-- A completion for a CID: late ones are counted and discarded; `none` = no command of that CID, or the bay's link is down.
[log 76: DESIGN CHOICE] -/
def Dev.takeCid (d : Dev) (bay cid : Nat) : Dev × Option NvmeUse :=
  let b := d.bay bay
  if b.quarantined.contains cid then
    ((d.count (dpcBay bay 8)).onBay bay fun b => { b with lateCpl := satAdd max32 b.lateCpl 1 }, none)
  else if b.state = .linkLost then (d, none)
  else match find b.commands cid with
    | some u => (d.onBay bay fun b => { b with commands := drop b.commands cid }, some u)
    | none => (d, none)

/-- NVME_WRITE_COMPLETION. A Write is durable at its successful completion: it carried FUA, or the drive has power-loss
protection (R407). One integrity error writes the stripe again whole; a second fails the member (R410). [log 76: DESIGN CHOICE] -/
def execNvmeWriteCompletion (bay cid : Nat) (status : NvmeStatus) (now : Nat) (s : State) : Answer := s.act fun d =>
  let d := d.clock now
  match d.takeCid bay cid with
  | (d, none) => d
  | (d, some use) =>
    match status, use with
    | .success, .unitWrite set st i => d.unitDone set st i
    | .success, .labelWrite set c => if (d.bay bay).fua then d.issue bay (.flush set c) else d
    | .success, _ => d
    | .integrity, .unitWrite set st i =>
      match (find d.stripes.sets set).bind fun t => find t.stripes st with
      | some x =>
        if x.retried.contains i then d.faultBay bay 1 .failed else
          (d.onSet set fun t => { t with stripes := alter t.stripes st fun x => { x with retried := i :: x.retried } }).writeStripe set st
      | none => d
    | .integrity, .rebuildWrite set st i =>
      match (find d.stripes.sets set).bind fun t => find t.stripes st with
      | some x =>
        if x.retried.contains (64 + i) then d.faultBay bay 1 .failed else
          (d.onSet set fun t => { t with stripes := alter t.stripes st fun x => { x with retried := (64 + i) :: x.retried } }).issue bay
            (.rebuildWrite set st i)
      | none => d.issue bay (.rebuildWrite set st i)
    | _, _ => d.faultBay bay 1 .failed

/-- NVME_FLUSH_COMPLETION: a Flush that ends well lets the label write count as complete. [log 76: DESIGN CHOICE] -/
def execNvmeFlushCompletion (bay cid : Nat) (status : NvmeStatus) (now : Nat) (s : State) : Answer := s.act fun d =>
  let d := d.clock now
  match d.takeCid bay cid with
  | (d, none) => d
  | (d, some _) => if status = .success then d else d.faultBay bay 1 .failed

/-- NVME_READ_COMPLETION: an error makes the blocks unreadable for the operation that reads them, which is told so. [log 76: DESIGN CHOICE] -/
def execNvmeReadCompletion (bay cid : Nat) (ok : Bool) (now : Nat) (s : State) : Answer := s.act fun d =>
  let d := d.clock now
  match d.takeCid bay cid with
  | (d, some (.scrubRead set st)) => if ok then d else d.onSet set fun t =>
      { t with scrubQueue := if t.scrubQueue.contains st then t.scrubQueue else t.scrubQueue ++ [st] }
  | (d, _) => d

/-- READ_TIMEOUT. -/
def execReadTimeout (bay cid now : Nat) (s : State) : Answer := s.act fun d =>
  let d := d.clock now
  match find (d.bay bay).commands cid with
  | some u =>
    if !u.isRead then d else
    let d := d.onBay bay fun b => { b with
      commands := drop b.commands cid, quarantined := b.quarantined ++ [cid], readTimeouts := satAdd max32 b.readTimeouts 1
      secondTimeouts := b.secondTimeouts + 1 }
    (d.count (dpcBay bay 4)).countRepair bay
  | none => d

/-- WRITE_TIMEOUT: a Write or a Flush (R410). -/
def execWriteTimeout (bay cid now : Nat) (s : State) : Answer := s.act fun d =>
  let d := d.clock now
  match find (d.bay bay).commands cid with
  | some u => if u.isRead || u.isAdmin then d else d.faultBay bay 0 .failed
  | none => d

/-- A failed health poll; three in a row are handled as a Write timeout (R415). -/
def Dev.failPoll (d : Dev) (bay : Nat) : Dev :=
  let n := (d.bay bay).failedPolls + 1
  let d := d.onBay bay fun b => { b with failedPolls := n, polling := false }
  if n ≥ 3 then d.faultBay bay 4 .failed else d

/-- Reason of the qualification check that an admin command serves (R402). -/
def adminReason : Nat → Nat
  | 0x02 => 10
  | 0x06 => 4
  | 0x09 => 9
  | 0x01 | 0x05 => 9
  | _ => 11

/-- ADMIN_TIMEOUT. -/
def execAdminTimeout (bay cid now : Nat) (s : State) : Answer := s.act fun d =>
  let d := d.clock now
  match find (d.bay bay).commands cid with
  | some (.admin op) =>
    let d := d.onBay bay fun b => { b with commands := drop b.commands cid }
    if (d.bay bay).state = .qualifying then d.rejectBay bay (adminReason op)
    else if op = 0x02 then d.failPoll bay else d
  | _ => d

/-- CID_QUARANTINE_END. -/
def execCidQuarantineEnd (bay cid : Nat) (s : State) : Answer := s.act fun d =>
  d.onBay bay fun b => { b with quarantined := b.quarantined.erase cid }

/-- DRIVE_TIMEOUT_SUMMARY. -/
def execDriveTimeoutSummary (bay : Nat) (s : State) : Answer := s.act fun d =>
  let n := (d.bay bay).secondTimeouts
  if n = 0 then d else (d.onBay bay fun b => { b with secondTimeouts := 0 }).driveEvent bay 0x08 [b4 n]

/-- DRIVE_DMA_REQUEST: served inside the issued buffers, else Unsupported Request, discarded and counted (R401). -/
def execDriveDmaRequest (bay addr len : Nat) (data : Option Bytes) (s : State) : Answer := s.act fun d =>
  let b := d.bay bay
  if b.issued.any fun r => decide (r.1 ≤ addr) && decide (addr + len ≤ r.1 + r.2) then
    match data with
    | some _ => d
    | none => d.emit (.dma bay addr len)
  else
    (d.count (dpcBay bay 0x0C)).onBay bay fun b => { b with
      badDma := satAdd max32 b.badDma 1, secondBadDma := b.secondBadDma + 1
      firstBadDma := if b.secondBadDma = 0 then addr else b.firstBadDma }

/-- DRIVE_BAD_DMA. -/
def execDriveBadDma (bay : Nat) (s : State) : Answer := s.act fun d =>
  let b := d.bay bay
  if b.secondBadDma = 0 then d else
    (d.onBay bay fun b => { b with secondBadDma := 0 }).driveEvent bay 0x0A [b8 b.firstBadDma, b4 b.secondBadDma]

/-- CONTROLLER_FATAL. -/
def execControllerFatal (bay now : Nat) (s : State) : Answer := s.act fun d => (d.clock now).faultBay bay 3 .failed

/-! ## Links and presence (R412 to R414) -/

/-- A bay's link goes down: LINK_LOST (R413). -/
def Dev.linkDown (d : Dev) (bay : Nat) : Dev :=
  if (d.bay bay).state = .qualified then
    (d.onBay bay fun b => { b with state := .linkLost, linkDownAt := d.now }).driveEvent bay 0x04 []
  else d

/-- DRIVE_LINK_DOWN. -/
def execDriveLinkDown (bay now : Nat) (s : State) : Answer := s.act fun d => (d.clock now).linkDown bay

/-- DRIVE_LINK_UP: outstanding commands are issued again, their old CIDs quarantined, and the waiting writes issued. -/
def execDriveLinkUp (bay now : Nat) (s : State) : Answer := s.act fun d =>
  let d := d.clock now
  let b := d.bay bay
  if b.state ≠ .linkLost then d else
  let again := b.commands.map Prod.snd ++ b.waiting
  let d := d.onBay bay fun b => { b with
    state := .qualified, commands := [], waiting := [], quarantined := b.quarantined ++ b.commands.map Prod.fst
    nextCid := b.nextCid }
  let d := again.foldl (fun d u => d.issue bay u) d
  d.driveEvent bay 0x05 [b4 ((now - b.linkDownAt) / ms)]

/-- LINK_DOWN_EXPIRY: the member becomes MISSING. -/
def execLinkDownExpiry (bay now : Nat) (s : State) : Answer := s.act fun d =>
  let d := d.clock now
  d.when (decide ((d.bay bay).state = .linkLost)) fun d => d.faultBay bay 5 .missing

/-- A drive removed: every command ends at once and the member becomes MISSING (R414). [log 119: DEDUCED] -/
def Dev.removeDrive (d : Dev) (bay : Nat) : Dev :=
  let b := d.bay bay
  if b.state = .empty then d else
  let n := b.commands.length + b.waiting.length
  let d := { d with bays := drop d.bays bay }
  let d := d.onStripes fun x => { x with labelledSpares := x.labelledSpares.erase bay }
  (d.driveEvent bay 0x03 [b4 n]).bayLost bay .missing 6

/-! ## Health (R415 to R417) -/

/-- HEALTH_POLL: the SMART / Health log of a qualified bay is read. -/
def execHealthPoll (bay : Nat) (s : State) : Answer := s.act fun d =>
  if (d.bay bay).state = .qualified then (d.onBay bay fun b => { b with polling := true }).issue bay (.admin 0x02) else d

/-- Conditions a log shows: Critical Warning bits 0 to 4, and bit 8 for wear. [log 77: DEDUCED] -/
def Dev.conditions (d : Dev) (l : SmartLog) : Nat :=
  l.critWarning % 32 + 256 * flag (decide (l.pctUsed ≥ d.field (dpc + 8) 0 8))

/-- The member of a bay becomes RETIRING, with what the module does about it (R314, R416). [log 77: DEDUCED] -/
def Dev.retireBay (d : Dev) (bay : Nat) : Dev :=
  match d.memberOf bay with
  | some (set, i) =>
    match (find d.stripes.sets set).bind fun t => t.serving i bay with
    | some m => if m.state = .active then ((d.retireMember set i bay).remedy set i bay).noSpares else d
    | none => d
  | none => d

/-- One health condition takes effect (R416): its number is the Critical Warning bit, 8 for wear. [log 77: DEDUCED] -/
def Dev.condition (d : Dev) (bay n pct temp : Nat) : Dev :=
  match n with
  | 1 => d.driveEvent bay 0x09 [b4 temp]
  | 3 => d.faultBay bay 2 .failed
  | 4 => ((d.onBay bay fun b => { b with fua := true }).driveEvent bay 0x06 [b1 n, b1 pct]).retireBay bay
  | _ => (d.driveEvent bay 0x06 [b1 n, b1 pct]).retireBay bay

/-- A valid log: conditions that two logs in a row show take effect; read-only at once (R415). -/
def Dev.health (d : Dev) (bay : Nat) (l : SmartLog) : Dev :=
  let old := (d.bay bay).conditions
  let new := d.conditions l
  let inForce := old / 65536
  let hit (n : Nat) : Bool := bitOf new n && (n == 3 || bitOf old n) && !bitOf inForce n
  let hits := [0, 1, 2, 3, 4, 8].filter hit
  let kept := bitmap 9 fun n => (bitOf inForce n && bitOf new n) || hits.contains n
  let d := d.onBay bay fun b => { b with
    conditions := new + 65536 * kept, failedPolls := 0, polling := false
    drive := b.drive.map fun x => { x with
      critWarning := l.critWarning, pctUsed := l.pctUsed, availSpare := l.availSpare, tempK := l.tempK
      unitsWritten := l.unitsWritten, mediaErrors := l.mediaErrors, pollBreath := d.breath } }
  hits.foldl (fun d n => d.condition bay n l.pctUsed l.tempK) d

/-- NVME_ADMIN_COMPLETION: a log page, an asynchronous event (which polls at once and is asked for again), or a step of
qualification. [log 76: DESIGN CHOICE] -/
def execNvmeAdminCompletion (bay cid : Nat) (health : Option SmartLog) (now : Nat) (s : State) : Answer := s.act fun d =>
  let d := d.clock now
  let qualifying := decide ((d.bay bay).state = .qualifying)
  match d.takeCid bay cid with
  | (d, some (.admin op)) =>
    if qualifying then match nextAdmin op with
      | some next => d.issue bay (.admin next)
      | none => d
    else match op, health with
      | 0x0C, _ => (d.issue bay (.admin 0x0C)).issue bay (.admin 0x02)
      | 0x02, some l => if 200 ≤ l.tempK ∧ l.tempK ≤ 400 then d.health bay l else d.failPoll bay
      | 0x02, none => d.failPoll bay
      | _, _ => d
  | (d, _) => d

/-- Code of a bay state. -/
def BayState.code : BayState → Nat
  | .empty => 0
  | .qualifying => 1
  | .rejected => 2
  | .qualified => 3
  | .linkLost => 4
  | .faulted => 5

/-- Page 0x05: drive health and wear (R417). -/
def Dev.drivePage (d : Dev) (bay : Nat) : Bytes :=
  let b := d.bay bay
  let x := b.drive.getD { capacity := 0, plp := false, availSpare := 0 }
  leBytes 1 b.state.code ++ leBytes 1 (b.speed + 8 * b.width) ++ leBytes 1 b.reason ++ leBytes 1 x.critWarning ++ leBytes 1 x.pctUsed ++
    leBytes 1 x.availSpare ++ leBytes 1 (flag (x.plp && !b.fua)) ++ zeros 1 ++ leBytes 2 x.vid ++ leBytes 2 x.tempK ++ zeros 4 ++
    padTo 20 x.serial ++ padTo 8 x.firmware ++ zeros 4 ++ leBytes 8 x.capacity ++ leBytes 8 x.unitsWritten ++ leBytes 8 x.mediaErrors ++
    leBytes 4 b.readTimeouts ++ leBytes 4 b.lateCpl ++ leBytes 4 b.writeFailures ++ leBytes 4 b.badDma ++ leBytes 8 x.pollBreath ++ zeros 160

end Sys2Proof.Machine
end

