-- ==== Sys2Proof/Machine/Power.lean ====
section
/-! DEFINITION. Power, hot insertion, hold-up, fans and temperatures (R419 to R442, R477, R502). -/

namespace Sys2Proof.Machine

open Sys2Proof RegisterMap

/-- A POWER event. -/
def Dev.powerEvent (d : Dev) (code unit : Nat) (data : List Item) : Dev := d.post Cls.power code unit data

/-- Offset of a per-bay PWR register. -/
def pwrBay (bay off : Nat) : Nat := pwr + 0x1000 + bay * 0x20 + off

/-- A filtered reading placed; its sensor delivers again (R432): 0 inlet mV, 1 inlet mA, 2 bank mV, 3 inlet mW, 16 + 3n + k bay n.
[log 97: DESIGN CHOICE] -/
def Dev.setReading (d : Dev) (sensor v : Nat) : Dev := d.onPower fun p =>
  { p with readings := put p.readings sensor v, stale := p.stale.filter fun x => x != sensor }

/-- The bank's voltage read: it is at full charge while it holds 49.5 V or more (R433). -/
def Dev.setBankVolts (d : Dev) (mv : Nat) : Dev := (d.setReading 2 mv).onPower fun p => { p with full := decide (49500 ≤ mv) }

/-- A filtered reading. -/
def Dev.reading (d : Dev) (sensor : Nat) : Nat := (find d.power.readings sensor).getD 0

/-! ## The alive line (R385, R386) -/

/-- The alive line released: the owner line follows it, and the write gate closes where the partner's last heartbeat
carried READY = 1. -/
def Dev.releaseAlive (d : Dev) : Dev :=
  d.onPeer fun p =>
    let ready := match p.last with
      | some h => h.ready
      | none => false
    { p with aliveOut := false, ownerOut := false, gateClosed := p.gateClosed || ready }

/-- The owner line follows the alive line and the sets owned (R385). -/
def Dev.driveOwner (d : Dev) : Dev :=
  d.onPeer fun p => { p with ownerOut := p.aliveOut && d.owned != 0 }

/-! ## Bays (R425 to R430) -/

/-- A bay enters DELAY where it is present, enabled and the module is at ON. -/
def Dev.startBay (d : Dev) (bay : Nat) : Dev :=
  let c := d.channel bay
  if !c.present then d
  else if d.field (pwrBay bay 0) 0 1 = 0 then d.onChannel bay fun c => { c with state := .off }
  else if d.power.inlet = .on ∧ d.startUp.phase ≥ 3 then d.onChannel bay fun c => { c with state := .delay, held := false }
  else d

/-- Every bay that is present and waits starts. -/
def Dev.startBays (d : Dev) : Dev :=
  d.power.bays.foldl (fun d b => if b.2.state = .empty then d.startBay b.1 else d) d

/-- Bays whose 12 V channel ramps. [log 96: DEDUCED] -/
def Dev.ramps (d : Dev) : Nat := (d.power.bays.filter fun b => b.2.state == .ramp).length

/-- Held ramps start in ascending bay order: at most 4 run at once, and none starts under the budget (R431, R492). [log 96: DEDUCED] -/
def Dev.startRamps (d : Dev) : Dev :=
  if d.power.budget then d else
  d.power.bays.foldl (fun d b =>
    if b.2.held && decide (b.2.state = .delay) && decide (d.ramps < 4) then
      d.onChannel b.1 fun c => { c with state := .ramp, held := false }
    else d) d

/-- A bay's drive has lost its power: a qualified one is LINK_LOST (R413), one that is not yet qualified ends. -/
def Dev.bayUnpowered (d : Dev) (bay : Nat) : Dev :=
  match (d.bay bay).state with
  | .qualified => d.linkDown bay
  | .qualifying | .rejected => { d with bays := drop d.bays bay }
  | _ => d

/-- Power-good on a bay's 12 V channel: ON, and qualification begins (R402, R426). -/
def Dev.bayOn (d : Dev) (bay rampUs : Nat) (shared : Bool) : Dev :=
  let d := d.onChannel bay fun c => { c with state := .on, shared := shared }
  let d := d.powerEvent 0x03 bay [b4 rampUs, b1 (flag shared)]
  (match (d.bay bay).state with
  | .empty | .qualifying | .rejected => d.beginQualify bay
  | _ => d).startRamps

/-- A channel of a bay is on or ramps, so that it can trip. -/
def BayChannel.fed (c : BayChannel) : Bool := c.present && (c.aux || decide (c.state = .ramp) || decide (c.state = .on))

/-- A trip or loss of power-good: both channels off, the fault latched, a retry where R430 allows one (R427). A 12 V channel that ENABLE
keeps OFF stays so. -/
def Dev.bayFault (d : Dev) (bay cause peak : Nat) : Dev :=
  let c := d.channel bay
  if !c.fed then d else
  let again := d.field (pwrBay bay 0) 2 1 == 1 && decide (c.tries < 3)
  let d := d.onChannel bay fun c =>
    { c with state := if c.state = .off then .off else if again then .retry else .fault, aux := false, cause := cause, shared := false }
  let d := (d.count (pwrBay bay 0x18)).powerEvent 0x04 bay [b1 cause, b4 peak, b1 c.tries]
  (d.bayUnpowered bay).startRamps

/-- A bay latch cleared: the unit starts again at DELAY with no retry made (R430). -/
def Dev.clearBayFault (d : Dev) (bay : Nat) : Dev :=
  let c := d.channel bay
  if c.state = .fault ∨ c.state = .retry then (d.onChannel bay fun c => { c with state := .empty, tries := 0 }).startBay bay else d

/-- A rebuild fills the spare in a bay, or the bay is a member of a set that is not FAILED (R428). -/
def Dev.bayInUse (d : Dev) (bay : Nat) : Bool :=
  match d.setOfBay bay with
  | some n => match find d.stripes.sets n with
    | some t => decide (t.state ≠ .failed)
    | none => false
  | none => false

/-- Commit-time test of a write of PWR_BAY_CTL (R428): disabling a bay in use needs FORCE. -/
def Dev.bayCtlOk (d : Dev) (bay value : Nat) : Bool := bitOf value 0 || bitOf value 1 || !d.bayInUse bay

/-- A recorded write of PWR_BAY_CTL takes effect (R426, R428, R430). FORCE and FAULT_CLEAR read 0 after it. -/
def Dev.applyBayCtl (d : Dev) (bay value : Nat) : Dev :=
  let d := d.setReg (pwrBay bay 0) (withBits (withBits value 1 1 0) 3 1 0 % 16)
  let c := d.channel bay
  let d := if bitOf value 3 then d.clearBayFault bay else d
  if bitOf value 0 then (if c.state = .off then d.startBay bay else d)
  else if c.state = .off ∨ c.present = false then d
  else
    let d := d.onChannel bay fun c => { c with state := .off, shared := false }
    ((d.powerEvent 0x05 bay [b1 0]).bayUnpowered bay).startRamps

/-- Bays held in DELAY, as a bitmap. [log 96: DEDUCED] -/
def Dev.baysHeld (d : Dev) : Nat := bitmap 32 fun b => decide ((d.channel b).state = .delay)

/-! ## Hold-up (R433, R434) -/

/-- Capacitance in mF: the last measurement, or 580 where none is held (R492). -/
def Power.capacitance (p : Power) : Nat := if p.capMf = 0 then 580 else p.capMf

/-- Usable energy in J at a bank voltage in mV: half C times (V² - 20²) (R434). -/
def usable (capMf mv : Nat) : Nat := capMf * (mv * mv - 400000000) / 2000000000

/-- The bank judged at a voltage: armed while the usable energy is 300 J or more (R434). -/
def Dev.judgeBank (d : Dev) (mv : Nat) : Dev :=
  let u := usable d.power.capacitance mv
  let d := d.setBankVolts mv
  if u ≥ 300 && !d.power.armed then (d.onPower fun p => { p with armed := true }).powerEvent 0x0B 0 [b4 u]
  else if u < 300 && d.power.armed then (d.onPower fun p => { p with armed := false }).powerEvent 0x0C 0 [b4 u]
  else d

/-! ## The save (R435 to R437) -/

/-- The dump slot that did not hold the last complete dump: `true` = slot B. -/
def Power.nextSlot (p : Power) : Bool := match p.dumpA, p.dumpB with
  | some a, some b => a.complete && (!b.complete || decide (b.breath ≤ a.breath))
  | some a, none => a.complete
  | none, _ => false

/-- The save starts: alive line released, heartbeats, ports and admission stop, bays off, chanters halted, the slot header INCOMPLETE.
[log 95: DEDUCED] -/
def Dev.startSave (d : Dev) (cause : Nat) : Dev :=
  if d.power.saving.isSome then d else
  let d := d.releaseAlive
  let d := d.power.bays.foldl (fun d b =>
    let on := decide (b.2.state = .on)
    let d := d.onChannel b.1 fun c => { c with state := .off, aux := false, shared := false }
    if on then (d.powerEvent 0x05 b.1 [b1 1]).bayUnpowered b.1 else d) d
  let d := d.onChanters fun c => { c with threads := [] }
  let slot : DumpSlot := { complete := false, breath := d.breath, jseq := d.stripes.nextJseq - 1, owned := d.owned }
  d.onPower fun p =>
    let p := { p with saving := some d.now, saveCause := cause }
    if p.nextSlot then { p with dumpB := some slot } else { p with dumpA := some slot }

/-! ## Fans and temperatures (R438, R439, R477) -/

/-- The hottest filtered temperature. [log 97: DESIGN CHOICE] -/
def Power.hottest (p : Power) : Int := p.temps.foldl (fun t x => max t (median x.2)) (-40)

/-- The duty set: FIXED, or linear from MIN_DUTY at T_LOW to 100 % at T_HIGH (R438). -/
def Dev.dutySet (d : Dev) : Nat :=
  let cfg (lo w : Nat) : Nat := d.field (pwr + 0x30) lo w
  if cfg 0 1 = 1 then cfg 1 7 else
  let low : Int := cfg 16 8
  let high : Int := cfg 24 8
  let t := d.power.hottest
  if t ≤ low then cfg 8 7
  else if high ≤ t then 100
  else cfg 8 7 + ((100 - cfg 8 7) * (t - low).toNat) / max 1 (high - low).toNat

/-- The fan duty driven, once the power controller runs its code. -/
def Dev.driveFans (d : Dev) : Dev :=
  if d.startUp.phase < 3 then d else d.onPower fun p => { p with duty := if p.tempStale.isEmpty then d.dutySet else 100 }

/-- DUTY_OUT of a fan: 100 % while another fan is failed (R439). -/
def Power.dutyOut (p : Power) (fan : Nat) : Nat := if p.fansFailed.any (· != fan) then 100 else p.duty

/-! ## Seat and inlet rows -/

/-- MODULE_SEATED: a new insertion clears the latch and retries and starts the inlet's machine again (R420). -/
def execModuleSeated (now : Nat) (s : State) : Answer := s.act fun d =>
  let d := d.clock now
  if d.power.seated then d else
  let d := d.onPower fun p =>
    { p with seated := true, cause := 0, tries := 0, inlet := if p.inWindow then .delay else .wait }
  if d.startUp.fail = 1 ∨ d.startUp.fail = 2 then d.onStart fun x => { x with phase := 0, fail := 0, slot := none } else d

/-- MODULE_EXTRACTION: with the inlet powered, the event, the alive line released and the save (R421). -/
def execModuleExtraction (now : Nat) (s : State) : Answer := s.act fun d =>
  let d := d.clock now
  if !d.power.seated then d else
  let powered := decide (d.power.inlet = .on)
  let d := d.onPower fun p => { p with seated := false, inlet := .wait, cause := 0, tries := 0 }
  if powered then ((d.powerEvent 0x12 0 []).releaseAlive).startSave 0 else d

/-- INLET_WINDOW: the inlet enters the window and waits out its delay, or leaves it and returns to WAIT (R423). -/
def execInletWindow (inside : Bool) (now : Nat) (s : State) : Answer := s.act fun d =>
  (d.clock now).onPower fun p =>
    if inside then { p with inWindow := true, inlet := if p.inlet = .wait ∧ p.seated ∧ p.failing.isNone then .delay else p.inlet }
    else { p with inWindow := false, inlet := .wait }

/-- INLET_DELAY_EXPIRY. -/
def execInletDelayExpiry (s : State) : Answer := s.act fun d =>
  d.onPower fun p => { p with inlet := if p.inlet = .delay ∧ p.seated ∧ p.inWindow then .ramp else p.inlet }

/-- INLET_ON: the output has reached 90 % of the input; converters and the charger start (R423, R492). -/
def execInletOn (mv rampUs now : Nat) (s : State) : Answer := s.act fun d =>
  let d := d.clock now
  if d.power.inlet ≠ .ramp then d else
  let d := (d.onPower fun p => { p with inlet := .on, charging := !p.budget }).setReading 0 mv
  let d := (d.onStart fun x => { x with inletOnAt := now }).powerEvent 0x01 0 [b4 mv, b4 rampUs]
  d.startBays

/-- The inlet gate off and the fault latched, with a retry where R430 allows one. -/
def Dev.inletFault (d : Dev) (cause : Nat) : Dev :=
  let p := d.power
  if p.inlet ≠ .ramp ∧ p.inlet ≠ .on then d else
  let again := d.field (pwr + 4) 0 1 == 1 && decide (p.tries < 3)
  (d.onPower fun p => { p with inlet := if again then .retry else .fault, cause := cause }).powerEvent 0x02 0 [b1 cause, b1 p.tries]

/-- INLET_FAULT. -/
def execInletFault (cause now : Nat) (s : State) : Answer := s.act fun d => (d.clock now).inletFault cause

/-- INLET_RAMP_TIMEOUT. -/
def execInletRampTimeout (s : State) : Answer := s.act fun d => d.when (decide (d.power.inlet = .ramp)) fun d => d.inletFault 4

/-- INLET_RETRY. -/
def execInletRetry (s : State) : Answer := s.act fun d =>
  d.onPower fun p => if p.inlet = .retry then { p with inlet := .ramp, tries := p.tries + 1 } else p

/-- A FAULT_CLEAR write clears the inlet latch; the unit starts again at DELAY (R430). -/
def Dev.clearInletFault (d : Dev) : Dev :=
  d.onPower fun p =>
    if p.inlet = .fault ∨ p.inlet = .retry then { p with inlet := if p.inWindow ∧ p.seated then .delay else .wait, tries := 0 } else p

/-- INLET_FAULT_CLEAR: the recorded write takes effect at its edge. -/
def execInletFaultClear (_client : Nat) (s : State) : Answer := s.act Dev.clearInletFault

/-! ## Bay rows -/

/-- BAY_INSERTED: a new insertion clears the bay's latch, retries and energy count (R420). -/
def execBayInserted (bay : Nat) (s : State) : Answer := s.act fun d =>
  if (d.channel bay).present || decide (bay ≥ 32) then d else
  let d := d.onChannel bay fun _ => { present := true }
  (d.powerEvent 0x06 bay []).startBay bay

/-- BAY_REMOVED: the channel is EMPTY and the DPC acts under R414. -/
def execBayRemoved (bay now : Nat) (s : State) : Answer := s.act fun d =>
  let d := d.clock now
  if !(d.channel bay).present then d else
  let d := d.onPower fun p => { p with bays := drop p.bays bay }
  ((d.powerEvent 0x07 bay []).removeDrive bay).startRamps

/-- BAY_DELAY_EXPIRY: the 12 V ramp starts, unless the budget or 4 running ramps hold it in DELAY, or a rail that the partner feeds is
joined without one. -/
def execBayDelayExpiry (bay : Nat) (fed : Bool) (s : State) : Answer := s.act fun d =>
  if (d.channel bay).state ≠ .delay then d
  else if fed then d.bayOn bay 0 true
  else (d.onChannel bay fun c => { c with held := true }).startRamps

/-- AUX_DELAY_EXPIRY: the auxiliary channel switches on by itself. -/
def execAuxDelayExpiry (bay : Nat) (s : State) : Answer := s.act fun d =>
  d.onChannel bay fun c =>
    if c.present && decide (d.power.inlet = .on) && decide (c.state ≠ .fault) && decide (c.state ≠ .retry) then { c with aux := true } else c

/-- BAY_POWERED. -/
def execBayPowered (bay rampUs : Nat) (s : State) : Answer := s.act fun d =>
  d.when (decide ((d.channel bay).state = .ramp)) fun d => d.bayOn bay rampUs false

/-- BAY_FAULT. -/
def execBayFault (bay cause peak now : Nat) (s : State) : Answer := s.act fun d => (d.clock now).bayFault bay cause peak

/-- BAY_RAMP_TIMEOUT: a fault with the ramp's last filtered current. [log 96: DEDUCED] -/
def execBayRampTimeout (bay now : Nat) (s : State) : Answer := s.act fun d =>
  let d := d.clock now
  d.when (decide ((d.channel bay).state = .ramp)) fun d => d.bayFault bay 4 (d.reading (17 + 3 * bay))

/-- BAY_RETRY: the channels start again, the 12 V one at RAMP unless it is held. [log 96: DEDUCED] -/
def execBayRetry (bay : Nat) (s : State) : Answer := s.act fun d =>
  if (d.channel bay).state ≠ .retry then d else
  (d.onChannel bay fun c => { c with state := .delay, held := true, tries := c.tries + 1, aux := true }).startRamps

/-- BAY_ENABLE: a recorded write of PWR_BAY_CTL takes effect where its commit test passes. -/
def execBayEnable (_client bay value now : Nat) (s : State) : Answer := s.act fun d =>
  let d := d.clock now
  d.when (decide (bay < 32) && d.bayCtlOk bay value) fun d => d.applyBayCtl bay value

/-- BAY_FAULT_CLEAR. -/
def execBayFaultClear (_client bay : Nat) (s : State) : Answer := s.act fun d => d.clearBayFault bay

/-! ## Budget, sensors and power loss -/

/-- POWER_BUDGET: above 29 A, charging stops and new ramps are held (R431). -/
def execPowerBudget (ma : Nat) (s : State) : Answer := s.act fun d =>
  let d := d.setReading 1 ma
  if ma ≤ 29000 ∨ d.power.budget then d else
  (d.onPower fun p => { p with budget := true, charging := false }).powerEvent 0x10 0 [b4 ma, b4 d.baysHeld]

/-- POWER_BUDGET_RELEASE. -/
def execPowerBudgetRelease (s : State) : Answer := s.act fun d =>
  if !d.power.budget then d else
  (d.onPower fun p => { p with budget := false, charging := decide (p.inlet = .on) && !p.full }).startRamps

/-- SENSOR_FAULT: the sensor is STALE and its register keeps its last value (R432). [log 97: DESIGN CHOICE] -/
def execSensorFault (sensor : Nat) (s : State) : Answer := s.act fun d =>
  if d.power.stale.contains sensor then d else
  (d.onPower fun p => { p with stale := sensor :: p.stale }).powerEvent 0x11 0 [b1 sensor, b4 (d.reading sensor)]

/-- POWER_FAIL: the bank feeds the module (R435). [log 95: DEDUCED] -/
def execPowerFail (mv now : Nat) (s : State) : Answer := s.act fun d =>
  let d := d.clock now
  if d.power.failing.isSome || d.power.saving.isSome then d else
  ((d.onPower fun p => { p with failing := some now, charging := false }).setReading 0 mv).powerEvent 0x08 0 [b4 mv]

/-- POWER_RESTORED: the inlet has returned within RIDE_MS, and the module runs on. [log 96: DEDUCED] -/
def execPowerRestored (now : Nat) (s : State) : Answer := s.act fun d =>
  let d := d.clock now
  match d.power.failing with
  | some t =>
    if d.power.saving.isSome || decide (d.power.inlet = .fault) || decide (d.power.inlet = .retry) then d else
    (d.onPower fun p => { p with failing := none, inWindow := true, inlet := .on, charging := !p.full && !p.budget }).powerEvent 0x09 0
      [b4 ((now - t) / us)]
  | none => d

/-- SAVE_START: RIDE_MS has ended. [log 95: DEDUCED] -/
def execSaveStart (now : Nat) (s : State) : Answer := s.act fun d =>
  let d := d.clock now
  d.when d.power.failing.isSome fun d => d.startSave 0

/-! ## Hold-up rows -/

/-- HOLDUP_TEST: C := 1.0 C / dV at full charge; the bank is judged again; HOLDUP_WORN once below 450 J (R434). -/
def execHoldupTest (deltaMv mv : Nat) (s : State) : Answer := s.act fun d =>
  if !d.power.full || deltaMv = 0 then d else
  let c := 1000000 / deltaMv
  let d := (d.onPower fun p => { p with capMf := c }).judgeBank mv
  let u := usable c mv
  if u < 450 && !d.power.wornPosted then
    (d.onPower fun p => { p with wornPosted := true }).powerEvent 0x0D 0 [b4 c, b4 u]
  else d

/-- HOLDUP_CHARGED: the usable energy has reached 300 J. -/
def execHoldupCharged (mv : Nat) (s : State) : Answer := s.act fun d => d.judgeBank mv

/-- HOLDUP_FULL_CHARGE: 49.5 V or more; the charger stops. -/
def execHoldupFullCharge (mv : Nat) (s : State) : Answer := s.act fun d =>
  let d := d.setBankVolts mv
  if mv < 49500 then d else d.onPower fun p => { p with charging := false }

/-- HOLDUP_RECHARGE: below 48.5 V the charger runs again. -/
def execHoldupRecharge (mv : Nat) (s : State) : Answer := s.act fun d =>
  let d := d.setBankVolts mv
  if mv ≥ 48500 then d else d.onPower fun p => { p with charging := decide (p.inlet = .on) && !p.budget }

/-! ## Fan and temperature rows -/

/-- FAN_FAULT: below FAIL_RPM for 3 s at a duty of 30 % or more (R439). -/
def execFanFault (fan rpm : Nat) (s : State) : Answer := s.act fun d =>
  let d := d.onPower fun p => { p with rpm := put p.rpm fan rpm }
  if fan ≥ 6 || d.power.fansFailed.contains fan || d.power.dutyOut fan < 30 || d.field (pwr + 0x30) 32 16 ≤ rpm then d else
  let duty := d.power.dutyOut fan
  (d.onPower fun p => { p with fansFailed := fan :: p.fansFailed }).powerEvent 0x0E fan [b4 rpm, b1 duty]

/-- FAN_RESTORED. -/
def execFanRestored (fan rpm : Nat) (s : State) : Answer := s.act fun d =>
  let d := d.onPower fun p => { p with rpm := put p.rpm fan rpm }
  if !d.power.fansFailed.contains fan || rpm < d.field (pwr + 0x30) 32 16 then d else
  (d.onPower fun p => { p with fansFailed := p.fansFailed.erase fan }).powerEvent 0x0F fan [b4 rpm]

/-- TEMPERATURE_SAMPLE: an accepted sample enters the median of five; the AUTO duty follows (R438, R477). [log 97: DESIGN CHOICE] -/
def execTemperatureSample (sensor : Nat) (celsius : Int) (s : State) : Answer := s.act fun d =>
  if celsius < -40 ∨ 150 < celsius then d else
  let old := (find d.power.temps sensor).getD []
  (d.onPower fun p =>
    { p with temps := put p.temps sensor ((celsius :: old).take 5), tempStale := p.tempStale.erase sensor }).driveFans

/-- TEMPERATURE_STALE: the fans run at 100 % (R477). Temperature sensor n is sensor 128 + n in the event. [log 97: DESIGN CHOICE] -/
def execTemperatureStale (sensor : Nat) (s : State) : Answer := s.act fun d =>
  if d.power.tempStale.contains sensor then d else
  let last := median ((find d.power.temps sensor).getD [])
  ((d.onPower fun p => { p with tempStale := sensor :: p.tempStale, duty := 100 })).powerEvent 0x11 0 [b1 (128 + sensor), i4 last]

/-- THERMAL_SHUTDOWN: steps 2 and 3 of R421, with cause 1 in the save log (R502). -/
def execThermalShutdown (now : Nat) (s : State) : Answer := s.act fun d =>
  let d := d.clock now
  if d.power.thermal then d else
  ((d.onPower fun p => { p with thermal := true }).releaseAlive).startSave 1

end Sys2Proof.Machine
end

