-- ==== Sys2Proof/Machine/Control.lean ====
section
/-! DEFINITION. The voted Drone, the stewards and the control reset (R345 to R353, R360, R361). -/

namespace Sys2Proof.Machine

open Sys2Proof

/-- The control path changed: an event of it. -/
def Dev.controlEvent (d : Dev) (code unit : Nat) (data : List Item) : Dev := d.post Cls.control code unit data

/-! ## The Drone (R345 to R350) -/

/-- The Drone halts: no output, the alive line released, and the stewards report it. [log 81: DEDUCED] -/
def Dev.haltDrone (d : Dev) (cores : Nat) : Dev :=
  if d.control.halted then d else
  let unit := ((List.range 3).find? (bitOf cores ·)).getD 0
  ((d.onControl fun c => { c with halted := true, recopying := false, recopyDue := false }).releaseAlive).controlEvent 0x53 unit
    [b4 cores, b1 (flag d.standbyReady)]

/-- A core dissents: cause 0 mismatch, 1 missing output, 2 SRAM error. It is fenced; a second one, before a re-copy has
completed, halts the Drone. A core that is already fenced has no vote. [log 81: DEDUCED] -/
def Dev.dissent (d : Dev) (core cause : Nat) : Dev :=
  if core ≥ 3 || d.control.halted || d.control.coresFenced.contains core then d
  else if !d.control.coresFenced.isEmpty then d.haltDrone (2 ^ core + bitmap 3 d.control.coresFenced.contains)
  else (d.onControl fun c => { c with coresFenced := core :: c.coresFenced }).controlEvent 0x50 core [b1 cause]

/-- DRONE_CORE_FENCED. [log 81: DEDUCED] -/
def execDroneCoreFenced (core cause now : Nat) (s : State) : Answer := s.act fun d => (d.clock now).dissent core cause

/-- DRONE_RECOPY: the fenced core's re-copy begins at the first edge after the fence, once the steps of R43 have completed. -/
def execDroneRecopy (now : Nat) (s : State) : Answer := s.act fun d =>
  let d := d.clock now
  if d.control.recopyDue && !d.control.halted then
    d.onControl fun c => { c with recopyDue := false, recopying := true, recopyFrom := now }
  else d

/-- DRONE_RECOPIED: the three cores run in lockstep again. -/
def execDroneRecopied (now : Nat) (s : State) : Answer := s.act fun d =>
  let d := d.clock now
  if !d.control.recopying then d else
  let core := d.control.coresFenced.headD 0
  (d.onControl fun c => { c with
    coresFenced := [], recopying := false, recopyEnd := now, recopies := satAdd 65535 c.recopies 1 }).controlEvent 0x51 core
    [b4 ((now - d.control.recopyFrom) / us)]

/-- DRONE_DEGRADED: a re-copy fails; the core stays fenced until module reset and the pair runs on. [log 81: DEDUCED] -/
def execDroneDegraded (now : Nat) (s : State) : Answer := s.act fun d =>
  let d := d.clock now
  if !d.control.recopying then d else
  let core := d.control.coresFenced.headD 0
  (d.onControl fun c => { c with recopying := false, recopyEnd := now, degraded := true }).controlEvent 0x52 core [b4 core]

/-- DRONE_HALTED: the two cores of a pair disagree; `cores` is the bitmap of those in dissent. -/
def execDroneHalted (cores : Nat) (s : State) : Answer := s.act fun d =>
  if d.control.coresFenced.isEmpty then d else d.haltDrone cores

/-! ## The stewards (R351 to R353) -/

/-- A steward's restart begins. [log 82: DEDUCED] -/
def Dev.restartSteward (d : Dev) (n : Nat) : Dev :=
  if n ≥ 8 || d.control.halted || d.control.stewardsRestarting.contains n then d
  else d.onControl fun c => { c with stewardsRestarting := n :: c.stewardsRestarting }

/-- STEWARD_RESTARTED: the Drone restarts a steward that missed three reports (cause 0) or trapped (cause 1); `done` = the
steward runs again from its image. Work it had not handed over runs again on another, and nothing runs twice. -/
def execStewardRestarted (steward cause : Nat) (done : Bool) (s : State) : Answer := s.act fun d =>
  if !done then d.restartSteward steward
  else if !d.control.stewardsRestarting.contains steward then d
  else (d.onControl fun c => { c with stewardsRestarting := c.stewardsRestarting.filter fun n => n != steward }).controlEvent 0x54 steward
    [b1 cause]

/-- STEWARD_VIOLATION: an access outside a steward's limits is refused and counted; `kind` 0 = an address, 1 = a register offset. -/
def execStewardViolation (steward addr kind : Nat) (s : State) : Answer := s.act fun d =>
  (d.count 0x1C).controlEvent 0x55 steward [if kind = 1 then b4 addr else b8 addr]

/-- Some steward runs. [log 82: DEDUCED] -/
def Control.stewardRuns (c : Control) : Bool := decide (c.stewardsRestarting.length < 8)

/-! ## Control reset (R360, R361) -/

/-- Mouthpiece entries are fetched: not while control is frozen, a control reset runs, the Drone is halted or a firmware
activation runs. -/
def Dev.mouthpieceOpen (d : Dev) : Bool :=
  !d.control.frozen && decide (d.control.reset = .idle) && !d.control.halted && decide (d.trust.stage ≠ .activating)

/-- Step 1 of R361: fetching stops and the unfetched entries of the mouthpieces of clients 1 to 3 are discarded. -/
def Dev.startControlReset (d : Dev) (cause : Nat) : Dev :=
  if d.control.reset ≠ .idle then d else
  [1, 2, 3].foldl (fun d c => d.onSq (mouthpiece c) fun q => { q with waiting := [], taken := [], reading := false })
    (d.onControl fun c => { c with reset := .draining cause })

/-- CONTROL_RESET: client 0 writes CTL_CONTROL_RESET through the endpoint; every value but 0xC7A5 is unlisted. -/
def execControlReset (client now value : Nat) (s : State) : Answer := s.act fun d =>
  let d := d.clock now
  if client ≠ 0 then d
  else if value % 65536 ≠ 0xC7A5 then d.unlisted 0x14 0 (value % 65536)
  else d.startControlReset 0

/-- AUTO_RESET: control has been frozen for CTL_FREEZE.AUTO_RESET_S seconds. -/
def execAutoReset (now : Nat) (s : State) : Answer := s.act fun d =>
  let d := d.clock now
  let after := d.field 0x18 0 16
  if d.control.frozen && after != 0 && decide (now ≥ d.control.frozenAt + after * sec) then d.startControlReset 1 else d

/-- Step 2 of R361 has ended: no mouthpiece command is in flight but those recorded and TXN_COMMITs that await their edge. [log 47: DEDUCED] -/
def Dev.controlDrained (d : Dev) : Bool := d.front.flight.all fun f =>
  !isMouthpiece f.2.sq || decide (f.2.stage = .recorded) || byteAt f.2.entry 0 == 0x41

/-- Step 4 of R361: stewards restart, CMD_CTL_STATUS is cleared, and the mouthpiece rings begin at index 0 of their bases.
[log 35: DEDUCED; log 36: DEDUCED] -/
def Dev.resetMouthpieces (d : Dev) (cause rolledBack : Nat) : Dev :=
  let d := d.onControl fun c => { c with
    frozen := false, frozenClient := 0, frozenIndex := 0, frozenBreath := 0, stewardsRestarting := List.range 8
    reset := .restarting cause rolledBack }
  let d := [0, 1, 2, 3].foldl (fun d c => (d.onSq (mouthpiece c) fun q => { q with head := 0, waiting := [], taken := [], reading := false }).onCq
    (mouthpiece c) fun q => { q with tail := 0, free := 0 }) d
  let d := ((d.dropPolls (mouthpiece 0)).dropScans (mouthpiece 0)).onSq (mouthpiece 0) fun q => { q with addr := d.reg RegisterMap.cmd }
  (d.onCq (mouthpiece 0) fun q => { q with addr := d.reg (RegisterMap.cmd + 8) }).scanCq (mouthpiece 0)

/-- CONTROL_RESET_DONE: fetching resumes on every mouthpiece, and each client hears of it. -/
def execControlResetDone (now : Nat) (s : State) : Answer := s.act fun d =>
  let d := d.clock now
  match d.control.reset with
  | .restarting cause n =>
    let d := d.onControl fun c => { c with reset := .idle, stewardsRestarting := [] }
    [0, 1, 2, 3].foldl (fun d c => d.postTo c Cls.control 0x57 c [b1 cause, b4 n]) d
  | _ => d

/-! ## Set recovery (R288) -/

/-- RECOVERY_DONE: every tail stripe of a recovering set has been written again, or the take-over does not wait for them (R388). -/
def execRecoveryDone (set now : Nat) (s : State) : Answer := s.running fun d =>
  let d := d.clock now
  match find d.stripes.sets set with
  | some t =>
    let waits := t.recSource != 1 && t.stripes.any fun x => decide (x.2.life = .closed)
    if !t.recovering || waits then d
    else
      let d := d.onPeer fun p => { p with taken := if p.taken.contains set then p.taken else p.taken ++ [set] }
      (d.recoveryDone set).onStart fun x => { x with recovered := if x.claimed.contains set && !x.recovered.contains set then x.recovered ++ [set] else x.recovered }
  | none => d

end Sys2Proof.Machine
end

