-- ==== Sys2Proof/Machine/Tagging.lean ====
section
/-! DEFINITION. Instruction tagging: the countdown of each chanter, and the records of tagged instructions (R469, R470). -/

namespace Sys2Proof.Machine

open Sys2Proof RegisterMap

/-- The tag generator of a chanter and the interval that follows: `2^(K-1) + r * 2^(K-8) + 2^(K-9)`. -/
def tagInterval (k generator : Nat) : Nat := 2 ^ (k - 1) + generator % 256 * 2 ^ (k - 8) + 2 ^ (k - 9)

/-- A chanter's unit with its next interval drawn. -/
def Dev.nextTag (d : Dev) (generator : Nat) : TagUnit :=
  let g := Config.tagNext generator
  { countdown := tagInterval (d.field (cnt + 0x20) 1 5) g, generator := g }

/-- Tagging runs on a chanter for a program. -/
def Dev.tags (d : Dev) (chanter prog : Nat) : Bool :=
  let cfg := d.reg (cnt + 0x20)
  bitOf cfg 0 && bitOf (d.reg (cnt + 0x28)) chanter && !d.chanters.fenced.contains chanter &&
    (bitsOf cfg 32 32 == 0 || bitsOf cfg 32 32 == prog)

/-- Seed of every generator: CNT_TAG_SEED, or with 0 the one drawn at start-up. -/
def Dev.tagSeed (d : Dev) : Nat := if d.reg (cnt + 0x30) = 0 then Config.tagSeed d.trust.bootCount else d.reg (cnt + 0x30)

/-- CNT_TAG_CFG has landed: every generator is seeded. -/
def Dev.seedTags (d : Dev) : Dev :=
  d.onCounters fun c => { c with tags := (c.tags.filter fun u => u.2.due.isSome || u.2.waiting.isSome).map fun u =>
    (u.1, { u.2 with generator := d.tagSeed }) }

/-- One instruction issued on a chanter in an activation of a program: the countdown falls, and at 0 it is tagged. [log 71: DEDUCED] -/
def Dev.tagIssue (d : Dev) (thread prog kind : Nat) : Dev :=
  let chanter := thread / 8
  if !d.tags chanter prog then d else
  let u := (find d.counters.tags chanter).getD (d.nextTag d.tagSeed)
  if u.due.isSome || u.waiting.isSome then d else
  let u := { u with countdown := u.countdown - 1, due := if u.countdown ≤ 1 then some (thread, prog, kind) else none }
  d.onCounters fun c => { c with tags := put c.tags chanter u }

/-- A record put in the ring that CNT_TAG_REGION names, or dropped and counted. [log 71: DEDUCED] -/
def Dev.writeTag (d : Dev) (b : Bytes) : Dev :=
  let key := d.reg (cnt + 0x34)
  if key / 256 = 0 then d else
  let lost (d : Dev) : Dev :=
    (d.count (cnt + 0x3C)).onCounters fun c => { c with secondDrops := (c.secondDrops.1, c.secondDrops.2 + 1) }
  match d.bufferRegion key with
  | none => lost d
  | some (i, r) =>
    let cap := r.length / 32
    if cap = 0 || d.counters.tagWritten ≥ 1000000 then lost d else
    let n := d.counters.tagIndex
    (d.writeRegion i (n % cap * 32) b).onCounters fun c => { c with tagIndex := (n + 1) % cap, tagWritten := c.tagWritten + 1 }

/-- A tagged engine instruction's ticket has ended: its record is written with RESULT and ENGINE_CYCLES, and the next
interval starts. -/
def Dev.tagTicket (d : Dev) (thread ticket status cycles : Nat) : Dev :=
  let c := thread / 8
  match find d.counters.tags c with
  | some u => match u.waiting with
    | some (t, k, _, b) =>
      if t = thread ∧ k = ticket then
        (d.writeTag (patch (patch b 26 (leBytes 1 status)) 28 (leBytes 4 cycles))).onCounters fun x =>
          { x with tags := put x.tags c (d.nextTag u.generator) }
      else d
    | none => d
  | none => d

/-- Cycles of 3.0 GHz from a tagged ticket's issue to an instant. -/
def Dev.tagCycles (d : Dev) (thread : Nat) (now : Nat) : Nat :=
  match (find d.counters.tags (thread / 8)).bind TagUnit.waiting with
  | some (_, _, issued, _) => min max32 ((now - issued) * 3 / 1000)
  | none => 0

/-- A thread's activation has ended: a ticket it still waited for writes its record with ENGINE_CYCLES all ones. -/
def Dev.tagAbandon (d : Dev) (thread : Nat) : Dev :=
  match (find d.counters.tags (thread / 8)).bind TagUnit.waiting with
  | some (t, k, _, _) => if t = thread then d.tagTicket thread k 0 max32 else d
  | none => d

/-- INSTRUCTION_TAG: the record of the instruction whose issue brought its chanter's count to 0. An engine instruction's
record waits for its ticket; any other is written at once, and the next interval starts. -/
def execInstructionTag (thread pc word delay stall cause fault now : Nat) (ticket : Option Nat) (s : State) : Answer := s.act fun d =>
  let d := d.clock now
  let c := thread / 8
  match find d.counters.tags c with
  | some u => match u.due with
   | some (t, prog, kind) =>
    if t ≠ thread then d else
    let b := leBytes 4 prog ++ leBytes 2 pc ++ leBytes 1 c ++ leBytes 1 (thread % 8 + 8 * kind) ++ leBytes 4 d.breath ++ leBytes 4 word ++
      leBytes 4 delay ++ leBytes 4 (min max32 stall) ++ leBytes 1 cause ++ leBytes 1 fault ++ zeros 6
    match ticket with
    | some k => d.onCounters fun x => { x with tags := put x.tags c { u with due := none, waiting := some (thread, k, now, b) } }
    | none => (d.writeTag b).onCounters fun x => { x with tags := put x.tags c (d.nextTag u.generator) }
   | none => d
  | none => d

end Sys2Proof.Machine
end

