-- ==== Sys2Proof/Machine/Counting.lean ====
section
/-! DEFINITION. The counter collector: sources, freeze and resume, latched totals, snapshots (R460 to R468, R472), and the lane
test window of the cipher engine's test mode (R252, R471). -/

namespace Sys2Proof.Machine

open Sys2Proof RegisterMap

/-! ## Counters and their sources (R460 to R464) -/

/-- Offset of a counter's CNT_SEL. -/
def selAt (c : Nat) : Nat := cnt + 0x100 + c * 0x10
/-- Offset of a counter's CNT_VAL. -/
def valAt (c : Nat) : Nat := cnt + 0x108 + c * 0x10

/-- The blocks that hold counters. -/
inductive CounterBlock where
  | hpc | swc | sch | cmd | cha | cpe | cip | str | dpc | pep
  deriving DecidableEq, Repr

/-- Block of a counter (R460). -/
def counterBlock (c : Nat) : CounterBlock :=
  if c < 8 then .hpc else if c < 24 then .swc else if c < 32 then .sch else if c < 40 then .cmd else if c < 56 then .cha
  else if c < 64 then .cpe else if c < 72 then .cip else if c < 80 then .str else if c < 88 then .dpc else .pep

/-- UNIT range of a native source of a block (R462): lowest and highest unit, or `any` where UNIT is ignored; `none` = the block
has no such source. -/
def sourceUnits : CounterBlock → Nat → Option Takes
  | _, 0x00 => some .any
  | .hpc, 0x10 | .hpc, 0x11 => some (.range 0 259)
  | .hpc, 0x12 => some .any
  | .swc, 0x11 => some (.range 0 260)
  | .swc, 0x10 | .swc, 0x12 | .swc, 0x13 => some .any
  | .sch, 0x10 | .sch, 0x11 | .sch, 0x12 => some .any
  | .cmd, 0x10 | .cmd, 0x11 | .cmd, 0x12 | .cmd, 0x13 | .cmd, 0x14 => some (.range 1 16384)
  | .cha, 0x10 | .cha, 0x11 | .cha, 0x12 | .cha, 0x13 | .cha, 0x14 => some (.range 0 47)
  | .cpe, 0x10 | .cpe, 0x11 => some (.range 0 1)
  | .cip, 0x10 | .cip, 0x11 => some .any
  | .str, 0x10 | .str, 0x11 => some .any
  | .str, 0x12 => some (.range 0 15)
  | .dpc, 0x10 | .dpc, 0x11 | .dpc, 0x12 => some (.range 0 31)
  | .pep, 0x10 => some .any
  | .pep, 0x11 => some (.range 0 63)
  | _, _ => none

/-- The native source of a DZ-1224 event number on a block; `some none` = listed, without a counterpart (R463). -/
def legacySource (b : CounterBlock) (n : Nat) : Option (Option Nat) :=
  match n, b with
  | 0x01, _ => some (some 0x00)
  | 0x04, .cmd => some (some 0x13)
  | 0x07, .hpc => some (some 0x10)
  | 0x0A, .swc => some (some 0x10)
  | 0x12, .dpc => some (some 0x11)
  | 0x13, .dpc => some (some 0x12)
  | 0x20, .cpe => some (some 0x10)
  | n, _ => if n = 0 ∨ n ≥ 0x40 ∨ [0x04, 0x07, 0x0A, 0x12, 0x13, 0x20].contains n then none else some none

/-- A CNT_SEL word selects something listed. -/
def selectionOk (c word : Nat) : Bool :=
  let event := bitsOf word 0 8
  let unit := bitsOf word 12 16
  let native (s : Nat) : Bool := match sourceUnits (counterBlock c) s with
    | some t => unit == 0xFFFF || t.accepts unit
    | none => false
  if bitOf word 8 then match legacySource (counterBlock c) event with
    | some (some s) => native s
    | some none => true
    | none => false
  else native event

/-- STATUS.UNSUPPORTED. -/
def Dev.unsupported (d : Dev) : Bool :=
  (List.range 96).any fun c => bitOf (d.reg (selAt c)) 8 && legacySource (counterBlock c) (d.field (selAt c) 0 8) == some none

/-! ## Totals and freezes (R465, R466) -/

/-- Registers that hold wrapping totals: the offsets that a freeze latches. -/
def totalRegisters : List Nat :=
  [cpe + 0x20, cpe + 0x28, pwr + 0x18] ++ ((List.range 260).map fun p => [hpc + 0x1028 + p * 0x40, hpc + 0x102C + p * 0x40]).flatten ++
    ((List.range 16).map fun n => [setAt n 0x20, setAt n 0x28]).flatten ++ (List.range 32).map fun b => pwr + 0x1010 + b * 0x20

/-- A total as it runs. -/
def Dev.runningTotal (d : Dev) (addr : Nat) : Nat :=
  if addr = pwr + 0x18 then Config.energy 32 d.now % 2 ^ 64
  else if pwr + 0x1010 ≤ addr && addr < pwr + 0x1410 then Config.energy ((addr - pwr - 0x1010) / 0x20) d.now % 2 ^ 64
  else if setAt 0 0 ≤ addr && addr < setAt 16 0 then match find d.stripes.sets ((addr - setAt 0 0) / 0x80) with
    | some t => (if (addr - setAt 0 0) % 0x80 = 0x20 then t.gcBytes else t.padBytes) % 2 ^ 64
    | none => 0
  else d.reg addr

/-- A total as a read returns it. -/
def Dev.totalRead (d : Dev) (addr : Nat) : Nat := if d.counters.frozen then (find d.counters.latched addr).getD 0 else d.runningTotal addr

/-- A freeze: every counter stops, the totals are latched, and CNT_FROZEN is posted. Cause 0 command, 1 edge. -/
def Dev.freeze (d : Dev) (cause : Nat) : Dev :=
  if d.counters.frozen then d else
  let table := totalRegisters.foldl (fun t a => if d.runningTotal a = 0 then t else put t a (d.runningTotal a)) []
  let d := d.onCounters fun c => { c with frozen := true, frozenBreath := d.breath, latched := table }
  (d.setField cnt 0 1 1).post Cls.control 0x91 0 [b1 cause, b8 d.breath]

/-- A resume: every counter runs again. -/
def Dev.resume (d : Dev) : Dev := (d.onCounters fun c => { c with frozen := false, latched := [] }).setField cnt 0 1 0

/-- An arming write counts for an edge. -/
def meets (arm : Option Nat) (edge : Nat) : Bool := match arm with
  | some t => decide (t + 2 * us ≤ edge)
  | none => false

/-- Step 3 of an edge: an armed freeze or resume whose cut-off has been met acts, and its bit reads 0 (R465). [log 72: DEDUCED] -/
def Dev.edgeFreeze (d : Dev) (edge : Nat) : Dev :=
  let d := if meets d.counters.freezeArm edge then
      ((d.onCounters fun c => { c with freezeArm := none }).setField cnt 1 1 0).freeze 1 else d
  if meets d.counters.resumeArm edge then ((d.onCounters fun c => { c with resumeArm := none }).setField cnt 2 1 0).resume else d

/-! ## Snapshots (R467) -/

/-- The snapshot record of an edge. [log 71: DEDUCED] -/
def Dev.snapshotRecord (d : Dev) (frozen : Bool) : Bytes :=
  let bays := (List.range 32).foldl (fun n b => n + d.totalRead (pwr + 0x1010 + b * 0x20)) 0
  leBytes 8 d.breath ++ leBytes 8 d.control.gen ++ leBytes 1 (flag frozen) ++ zeros 3 ++ leBytes 8 (d.reg (cnt + 0x40)) ++
    leBytes 4 (d.reg (cnt + 0x48)) ++ leBytes 8 (d.totalRead (cpe + 0x20)) ++ leBytes 8 (d.totalRead (cpe + 0x28)) ++
    leBytes 8 (d.totalRead (pwr + 0x18)) ++ leBytes 8 bays ++ ((List.range 96).map fun c => leBytes 8 (d.field (valAt c) 0 48)).flatten

/-- A snapshot written into its ring, or dropped and counted; `frozen` = the counters were frozen before the edge. [log 71: DEDUCED] -/
def Dev.snapshot (d : Dev) (frozen : Bool) : Dev :=
  let div := d.field cnt 16 16
  let key := d.reg (cnt + 0x10)
  if div = 0 || d.breath % div != 0 || key / 256 = 0 then d else
  let lost (d : Dev) : Dev :=
    (d.count (cnt + 0x18)).onCounters fun c => { c with secondDrops := (c.secondDrops.1 + 1, c.secondDrops.2) }
  match d.bufferRegion key with
  | none => lost d
  | some (i, r) =>
    let cap := r.length / 832
    if cap = 0 || d.counters.snapWritten ≥ 100000 then lost d else
    let n := d.counters.snapIndex
    (d.writeRegion i (n % cap * 832) (d.snapshotRecord frozen)).onCounters fun c =>
      { c with snapIndex := (n + 1) % cap, snapWritten := c.snapWritten + 1 }

/-! ## Rows of the collector -/

/-- CNT_FREEZE: FREEZE is written 1. -/
def execCntFreeze (_client : Nat) (s : State) : Answer := s.act fun d => d.freeze 0

/-- CNT_RESUME: FREEZE is written 0. -/
def execCntResume (_client : Nat) (s : State) : Answer := s.act Dev.resume

/-- FREEZE_EDGE armed. [log 72: DEDUCED] -/
def Dev.armFreeze (d : Dev) (now : Nat) : Dev := (d.onCounters fun c => { c with freezeArm := some now }).setField cnt 1 1 1

/-- RESUME_EDGE armed. [log 72: DEDUCED] -/
def Dev.armResume (d : Dev) (now : Nat) : Dev := (d.onCounters fun c => { c with resumeArm := some now }).setField cnt 2 1 1

/-- FREEZE_EDGE is written 1. -/
def execFreezeEdge (_client now : Nat) (s : State) : Answer := s.act fun d => (d.clock now).armFreeze now

/-- RESUME_EDGE is written 1. -/
def execResumeEdge (_client now : Nat) (s : State) : Answer := s.act fun d => (d.clock now).armResume now

/-- Every CNT_VAL and CNT_OVF bit set to 0. -/
def Dev.clearCounters (d : Dev) : Dev :=
  ((List.range 96).foldl (fun (d : Dev) c => d.setReg (valAt c) 0) d |>.setReg (cnt + 0x40) 0).setReg (cnt + 0x48) 0

/-- CLEAR_ALL. -/
def execClearAll (_client : Nat) (s : State) : Answer := s.act Dev.clearCounters

/-- CNT_VAL_WRITE lands at once. -/
def execCntValWrite (_client counter value : Nat) (s : State) : Answer := s.act fun d =>
  if counter < 96 then d.setReg (valAt counter) (value % 2 ^ 48) else d

/-- A counter has wrapped: its CNT_OVF bit is set, with an event where it was 0 (R468). [log 73: DESIGN CHOICE] -/
def Dev.wrapped (d : Dev) (c : Nat) : Dev :=
  let addr := cnt + 0x40 + 8 * (c / 64)
  if d.field addr (c % 64) 1 = 1 then d else (d.setField addr (c % 64) 1 1).post Cls.control 0x90 c [b8 d.breath]

/-- CNT_OVERFLOW: a counter that is not frozen has counted an amount, which may carry it past 2^48 - 1 (R461, R468). [log 73: DESIGN CHOICE] -/
def execCntOverflow (counter amount : Nat) (s : State) : Answer := s.act fun d =>
  if counter ≥ 96 || d.counters.frozen then d else
  let v := d.field (valAt counter) 0 48 + amount
  let d := d.setReg (valAt counter) (v % 2 ^ 48)
  if v < 2 ^ 48 then d else d.wrapped counter

/-- CNT_RECORD_DROP_SUMMARY: the end of a second of the collector. -/
def execCntRecordDropSummary (s : State) : Answer := s.act fun d =>
  let (a, b) := d.counters.secondDrops
  let d := d.onCounters fun c => { c with snapWritten := 0, tagWritten := 0, secondDrops := (0, 0) }
  if a + b = 0 then d else d.post Cls.control 0x92 0 [b4 a, b4 b]

/-! ## The lane test window (R252, R471) -/

/-- Offsets of CNT_LANE_TEST's registers. [log 14: DESIGN CHOICE] -/
def laneParam : Nat := cnt + 0x8000
/-- IV. [log 14: DESIGN CHOICE] -/
def laneIv : Nat := cnt + 0x8010
/-- TEST_IN. -/
def laneIn : Nat := cnt + 0x9000
/-- TEST_OUT. -/
def laneOut : Nat := cnt + 0xA000

/-- Test mode is on. -/
def Dev.testing (d : Dev) : Bool := d.field (cip + 0x2C) 0 1 == 1

/-- Bytes of consecutive 8-byte registers. -/
def Dev.regBytes (d : Dev) (addr n : Nat) : Bytes := slice ((List.range ((n + 7) / 8)).map fun i => leBytes 8 (d.reg (addr + 8 * i))).flatten 0 n

/-- Bytes put into consecutive 8-byte registers. -/
def Dev.putRegBytes (d : Dev) (addr : Nat) (b : Bytes) : Dev :=
  (List.range ((b.length + 7) / 8)).foldl (fun (d : Dev) i => d.setReg (addr + 8 * i) (leAt b (8 * i) 8)) d

/-- Output of a test operation and its lane occupancy: OP 0 AES block, 1 GCM, 2 XTS encrypt, 3 XTS decrypt. A length that the
operation does not take gives no output. [log 14: DESIGN CHOICE; log 15: DEDUCED] -/
def Dev.laneTest (d : Dev) (op : Nat) : Option (Bytes × Nat) :=
  let len := d.field laneParam 0 13
  let aad := d.field laneParam 16 13
  let key := padTo 32 d.cipher.test.key
  let input := d.regBytes laneIn len
  let iv := d.regBytes laneIv 16
  if len < 16 || 4096 < len then none else
  match op with
  | 0 => if len = 16 then some (Aes.encrypt key input, Config.aesCycles) else none
  | 1 =>
    if aad > len then none else
    let (c, t) := Gcm.encrypt key (iv.take 12) (input.take aad) (input.drop aad)
    some (c ++ t, (32 + len + 15) / 16 + 2)
  | 2 => some (Xts.encrypt key (Config.testKey2 key) iv input, (len + 15) / 16)
  | _ => some (Xts.decrypt key (Config.testKey2 key) iv input, (len + 15) / 16)

/-- GO of an operation by a client: it runs in test mode for client 0 only. [log 15: DEDUCED; log 108: DEDUCED] -/
def Dev.goTest (d : Dev) (client op : Nat) : Dev :=
  if client ≠ 0 || !d.testing then d else
  let d := d.setField (cip + 0x2C) 3 5 op
  match d.laneTest op with
  | some (out, cycles) => (d.putRegBytes laneOut out).setField laneParam 40 24 cycles
  | none => d

/-- TEST_AES_BLOCK_ENCRYPT. -/
def execTestAesBlockEncrypt (client : Nat) (s : State) : Answer := s.act fun d => d.goTest client 0
/-- TEST_GCM_ENCRYPT. -/
def execTestGcmEncrypt (client : Nat) (s : State) : Answer := s.act fun d => d.goTest client 1
/-- TEST_XTS_ENCRYPT. -/
def execTestXtsEncrypt (client : Nat) (s : State) : Answer := s.act fun d => d.goTest client 2
/-- TEST_XTS_DECRYPT. -/
def execTestXtsDecrypt (client : Nat) (s : State) : Answer := s.act fun d => d.goTest client 3

/-- Test mode may be entered by a client: client 0, the owner lock clear, no DEK LIVE (R252). [log 108: DEDUCED] -/
def Dev.testAllowed (d : Dev) (client : Nat) : Bool :=
  client == 0 && d.field 0x40 0 1 == 0 && !(d.cipher.keys.any fun k => k.2.type == 2 && decide (k.2.life = .live))

/-- Test mode entered, where the write is allowed. [log 108: DEDUCED] -/
def Dev.enterTest (d : Dev) (client : Nat) : Dev :=
  if d.testing || !d.testAllowed client then d else
    (d.setField (cip + 0x2C) 0 1 1).post Cls.security 0x14 0 [b1 client]

/-- Test mode ends: the test key is zeroised and the lanes return to the pool (R252). -/
def Dev.leaveTest (d : Dev) : Dev := (d.onCipher fun c => { c with test := {} }).setField (cip + 0x2C) 0 2 0

/-- CIP_TEST_ENTERED: ENABLE is written 1. -/
def execCipTestEntered (client : Nat) (s : State) : Answer := s.act fun d => d.enterTest client

/-- CIP_TEST_EXIT: ENABLE is written 0. -/
def execCipTestExit (s : State) : Answer := s.act fun d => d.when d.testing Dev.leaveTest

end Sys2Proof.Machine
end

