-- ==== Sys2Proof/Machine/Fields.lean ====
section
/-! DEFINITION. How a register write reaches its fields: accesses of 4 and 8 bytes, the access codes, values a field cannot take,
and writes recorded in a transaction (R7 to R11, R45, R356, R505). -/

namespace Sys2Proof.Machine

open Sys2Proof RegisterMap

/-- The part of a register that an access covers: bits `mask`, and the value in the register's own bit numbering. -/
structure Hit where
  reg : Register
  addr : Nat
  mask : Nat
  value : Nat
  deriving DecidableEq, Repr

/-- 2^32. -/
def word32 : Nat := 2 ^ 32

/-- The registers that an aligned access of 4 or 8 bytes covers, each with the bits of it. -/
def hits (addr bytes value : Nat) : List Hit :=
  let low : List Hit := match registerAt addr with
    | some r =>
      if r.bytes = 8 && bytes = 8 then [{ reg := r, addr := addr, mask := 2 ^ 64 - 1, value := value % 2 ^ 64 }]
      else [{ reg := r, addr := addr, mask := word32 - 1, value := value % word32 }]
    | none =>
      if addr < 4 || addr % 8 ≠ 4 then [] else
      match registerAt (addr - 4) with
      | some r =>
        if r.bytes = 8 then [{ reg := r, addr := addr - 4, mask := (word32 - 1) * word32, value := value % word32 * word32 }] else []
      | none => []
  let wide := match registerAt addr with
    | some r => r.bytes == 8
    | none => false
  let high : List Hit := if bytes = 8 && !wide then match registerAt (addr + 4) with
      | some r => [{ reg := r, addr := addr + 4, mask := word32 - 1, value := value / word32 % word32 }]
      | none => []
    else []
  low ++ high

/-- The bits of a field that an access covers. [log 20: DEDUCED] -/
def Hit.covers (h : Hit) (f : Field) : Bool := bitsOf h.mask f.lo f.width != 0

/-- A field's value after an access, from the value it held. -/
def Hit.fieldValue (h : Hit) (f : Field) (old : Nat) : Nat :=
  let m := bitsOf h.mask f.lo f.width
  old - Nat.land old m + Nat.land (bitsOf h.value f.lo f.width) m

/-- The word that a read of an RWS field goes to: the one last written, where a write waits for its edge (R8). -/
def Dev.written (d : Dev) (addr : Nat) : Nat := (find d.regs.written addr).getD (d.reg addr)

/-- A stored register word as a read returns it: RWS fields as last written, the others in force. -/
def Dev.storedWord (d : Dev) (r : Register) (addr : Nat) : Nat :=
  r.fields.foldl (fun w f =>
    let v := if f.access = .rws then bitsOf (d.written addr) f.lo f.width
      else if f.access = .wo then 0 else bitsOf (d.reg addr) f.lo f.width
    withBits w f.lo f.width v) 0

/-- One field of a direct write: the module after it, and whether the value was rejected (R10). [log 20: DEDUCED] -/
def Dev.writeField (d : Dev) (h : Hit) (client arrival : Nat) (f : Field) : Dev × Bool :=
  if !h.covers f then (d, false) else
  match f.access with
  | .ro | .rc => (d, false)
  | .wo =>
    let v := h.fieldValue f 0
    if f.takes.accepts v then (d, false) else (d.unlisted h.addr f.lo v, true)
  | .w1c =>
    let old := d.field h.addr f.lo f.width
    (d.setField h.addr f.lo f.width (old - Nat.land old (h.fieldValue f 0)), false)
  | .rw =>
    let v := h.fieldValue f (d.field h.addr f.lo f.width)
    if f.takes.accepts v then (d.setField h.addr f.lo f.width v, false) else (d.unlisted h.addr f.lo v, true)
  | .rws =>
    let v := h.fieldValue f (bitsOf (d.written h.addr) f.lo f.width)
    if f.takes.accepts v then
      let w : LandingWrite := { addr := h.addr, lo := f.lo, width := f.width, value := v, arrival := arrival, client := client }
      ({ d with regs := { d.regs with
          landing := d.regs.landing ++ [w], written := put d.regs.written h.addr (withBits (d.written h.addr) f.lo f.width v) } }, false)
    else (d.unlisted h.addr f.lo v, true)

/-- The fields of a direct write, lowest first. -/
def Dev.writeFields (d : Dev) (h : Hit) (client arrival : Nat) : Dev × Bool :=
  h.reg.fields.foldl (fun (p : Dev × Bool) f =>
    let q := p.1.writeField h client arrival f
    (q.1, p.2 || q.2)) (d, false)

/-- A write to registers that have no behaviour of their own. -/
def Dev.plainWrite (d : Dev) (client arrival addr bytes value : Nat) : Dev × Bool :=
  (hits addr bytes value).foldl (fun (p : Dev × Bool) h =>
    let q := p.1.writeFields h client arrival
    (q.1, p.2 || q.2)) (d, false)

/-- An access reaches an RWS field. -/
def targetsRws (addr bytes : Nat) : Bool :=
  (hits addr bytes 0).any fun h => h.reg.fields.any fun f => f.access == Access.rws && h.covers f

/-- Every RWS field that a recorded write reaches can take its value (R505). [log 30: DEDUCED] -/
def Dev.recordable (d : Dev) (addr bytes value : Nat) : Bool :=
  (hits addr bytes value).all fun h => h.reg.fields.all fun f =>
    f.access != Access.rws || !h.covers f || f.takes.accepts (h.fieldValue f (d.field h.addr f.lo f.width))

/-- The RWS fields of a recorded write placed in force. -/
def Dev.placeRecorded (d : Dev) (addr bytes value : Nat) : Dev :=
  (hits addr bytes value).foldl (fun d h => h.reg.fields.foldl (fun d f =>
    if f.access = .rws && h.covers f then
      let v := h.fieldValue f (d.field h.addr f.lo f.width)
      let d := d.setField h.addr f.lo f.width v
      let written := match find d.regs.written h.addr with
        | some w => put d.regs.written h.addr (withBits w f.lo f.width v)
        | none => d.regs.written
      { d with regs := { d.regs with written := written } }
    else d) d) d

/-- A landing write placed in force. [log 19: DEDUCED] -/
def Dev.placeLanding (d : Dev) (w : LandingWrite) : Dev := d.setField w.addr w.lo w.width w.value

end Sys2Proof.Machine
end

