-- ==== Sys2Proof/Machine/Grid.lean ====
section
/-! DEFINITION. The breath grid: time sources, their filters and qualification, locking, slewing and re-seeding (R32 to
R50), and the boundary clock (R36). -/

namespace Sys2Proof.Machine

open Sys2Proof RegisterMap

/-! ## The reference grid (R32, R33) -/

/-- SPAN_N in force. -/
def Dev.spanN (d : Dev) : Nat := max 1 (d.field (brg + 8) 0 16)
/-- SPAN_PS in force. -/
def Dev.spanPs (d : Dev) : Nat := d.field brg 0 48

/-- Reference time of reference edge `j`. -/
def Dev.refEdge (d : Dev) (j : Int) : Int :=
  d.grid.anchorTime + (j - d.grid.anchorIndex) * d.spanPs / d.spanN

/-- Index of the last reference edge at or before a reference time. -/
def Dev.refIndex (d : Dev) (t : Int) : Int :=
  let j := d.grid.anchorIndex + (t - d.grid.anchorTime) * d.spanN / max 1 d.spanPs
  if d.refEdge (j + 1) ≤ t then j + 1 else j

/-- Index of the reference edge nearest to a reference time. -/
def Dev.nearest (d : Dev) (t : Int) : Int :=
  let j := d.refIndex t
  if t - d.refEdge j ≤ d.refEdge (j + 1) - t then j else j + 1

/-- Accumulator remainder of a grid that lies on reference edge `j` (R32). -/
def Dev.remainderAt (d : Dev) (j : Int) : Nat := (((j - d.grid.anchorIndex) * d.spanPs) % (d.spanN : Int)).toNat

/-- Phase of the next edge against the reference grid: what the servo must close (R39). -/
def Dev.phase (d : Dev) : Int :=
  let t := (d.grid.nextEdge : Int) + d.grid.offset
  t - d.refEdge (d.nearest t)

/-- EPOCH of the sources that BRG_EPOCH governs (R33). -/
def Dev.epoch (d : Dev) (s : TimeSource) : Int :=
  match s with
  | .ptp => (d.field (brg + 0x10) 0 48 * sec + d.field (brg + 0x18) 0 30 * 1000 : Nat)
  | _ => (d.field (brg + 0x10) 0 48 * sec : Nat)

/-! ## Sources -/

/-- Code of a time source in BRG_REF_SEL. -/
def TimeSource.code : TimeSource → Nat
  | .ptp => 1
  | .syncIn => 2
  | .ref10m => 3
  | .peer => 4

/-- Source of a code. -/
def sourceOf : Nat → Option TimeSource
  | 1 => some .ptp
  | 2 => some .syncIn
  | 3 => some .ref10m
  | 4 => some .peer
  | _ => none

/-- Code of a source in use, 0 for none. -/
def codeOf : Option TimeSource → Nat
  | some s => s.code
  | none => 0

/-- Sources listed in BRG_REF_SEL, highest priority first (R35). -/
def Dev.listed (d : Dev) : List TimeSource :=
  [0, 4, 8, 12].filterMap fun k => sourceOf (d.field (brg + 0x20) k 4)

/-- Filter of a source. -/
def Grid.filter (g : Grid) : TimeSource → SourceFilter
  | .ptp => g.ptp
  | .syncIn => g.syncIn
  | .ref10m => g.ref10m
  | .peer => g.peer

/-- Filter of a source changed. -/
def Grid.setFilter (g : Grid) (s : TimeSource) (f : SourceFilter) : Grid :=
  match s with
  | .ptp => { g with ptp := f }
  | .syncIn => { g with syncIn := f }
  | .ref10m => { g with ref10m := f }
  | .peer => { g with peer := f }

/-- Whether some capture window is ARMED. -/
def Dev.anyArmed (d : Dev) : Bool := d.memory.windows.any fun w => decide (w.2.mode = .armed)

/-- A TIME event; its unit is the source code in use (R50). [log 129: DEDUCED] -/
def Dev.timeEvent (d : Dev) (code : Nat) (data : List Item) : Dev := d.post Cls.time code (codeOf d.grid.source) data

/-- Picoseconds to nanoseconds, towards minus infinity. -/
def toNs (t : Int) : Int := t / 1000

/-- The anchor of a source taken afresh (R33): the epoch, the SYNC_IN pulse, or the module's own latest edge for PEER. [log 23: DEDUCED] -/
def Dev.anchor (d : Dev) (s : TimeSource) : Dev :=
  match s with
  | .ptp | .ref10m => d.onGrid fun g => { g with anchorTime := d.epoch s, anchorIndex := 0, epochHeld := false }
  | .syncIn => d.onGrid fun g => { g with anchorTime := g.lastSyncPulse.getD g.lastEdge, anchorIndex := g.breath }
  | .peer => d.onGrid fun g => { g with anchorTime := g.lastEdge, anchorIndex := g.breath }

/-- The filtered offset of a source: the median of its samples (R35). [log 22: DEDUCED] -/
def Dev.filtered (d : Dev) (s : TimeSource) : Int := median (d.grid.filter s).samples

/-- The anchor governs on: a lock on the same source as the last is no change of source, so PTP and REF10M_IN keep a re-anchored
span (R33, R37). [log 23: DEDUCED] -/
def Dev.keepsAnchor (d : Dev) (s : TimeSource) : Bool :=
  decide (d.grid.lastLocked = some s) && (s == .ptp || s == .ref10m) && !d.grid.epochHeld

/-- The grid brought onto a source: LOCKED, with the difference to close by slewing, or, for the first lock with no
window ARMED, by a re-seed at the next edge (R37, R38, R41). [log 22: DEDUCED] -/
def Dev.lockOn (d : Dev) (s : TimeSource) : Dev :=
  let first := decide (d.grid.lastLocked = none)
  let old := d.grid.lastLocked
  let d := if d.keepsAnchor s then d else d.anchor s
  let d := d.onGrid fun g => { g with mode := .locked, source := some s, lastLocked := some s, reverting := none }
  let d := d.onGrid fun g => { g with offset := d.filtered s }
  let c := d.phase
  let seam := first && !d.anyArmed
  let d := d.onGrid fun g => { g with correction := if seam then 0 else c, slewed := 0, seamDue := seam }
  let d := if !first && old ≠ some s then d.timeEvent 0x04 [b1 (codeOf old), b1 s.code] else d
  d.timeEvent 0x01 [b1 s.code, i8 (toNs d.grid.offset)]

/-- A change from one source to another while LOCKED: by slewing (R37). [log 24: DEDUCED] -/
def Dev.changeSource (d : Dev) (s : TimeSource) : Dev :=
  let old := d.grid.source
  let d := d.anchor s
  let d := d.onGrid fun g => { g with source := some s, lastLocked := some s, reverting := none }
  let d := d.onGrid fun g => { g with offset := d.filtered s }
  let c := d.phase
  let d := d.onGrid fun g => { g with correction := c, slewed := 0 }
  d.timeEvent 0x04 [b1 (codeOf old), b1 s.code]

/-- Sources that may be taken now: qualified and listed. SYNC_IN is taken only at a pulse whose breath number is a
multiple of its DIV (R33). -/
def Dev.candidates (d : Dev) (pulse : Bool) : List TimeSource :=
  d.listed.filter fun s => (d.grid.filter s).qualified && (s != .syncIn || pulse || decide (d.grid.source = some s))

/-- The source in use chosen again after a change of some source's qualification or of BRG_REF_SEL (R35, R37, R38). -/
def Dev.chooseSource (d : Dev) (pulse : Bool := false) : Dev :=
  let best := (d.candidates pulse).head?
  match d.grid.source, best with
  | none, some s => d.lockOn s
  | none, none =>
    if d.grid.lastLocked.isSome then d else
    let starting := d.listed.any fun s => decide ((d.grid.filter s).streak > 0)
    if starting && decide (d.grid.mode = .freerun) then d.onGrid fun g => { g with mode := .acquiring }
    else if !starting && decide (d.grid.mode = .acquiring) then
      (d.onGrid fun g => { g with mode := .freerun }).timeEvent 0x03 []
    else d
  | some c, b =>
    if d.listed.contains c && (d.grid.filter c).qualified then
      match b with
      | some s =>
        if s = c then d.onGrid fun g => { g with reverting := none }
        else if d.field (brg + 0x68) 0 16 = 0 then d.changeSource s
        else d.onGrid fun g => { g with reverting := some s }
      | none => d
    else match b with
      | some s => d.changeSource s
      | none =>
        let d := d.timeEvent 0x02 [b1 c.code, i8 (toNs d.grid.offset)]
        d.onGrid fun g => { g with mode := .holdover, source := none, correction := 0, reverting := none }

/-- A new filtered offset of the source in use: its change is closed by slewing, and a change above 1 µs is a reference
step (R39, R40). [log 129: DEDUCED] -/
def Dev.steer (d : Dev) (s : TimeSource) : Dev :=
  if d.grid.source ≠ some s || d.grid.seamDue then
    if d.grid.source = some s then d.onGrid fun g => { g with offset := d.filtered s } else d
  else
    let new := d.filtered s
    let step := new - d.grid.offset
    let start := decide (d.grid.correction = 0)
    let d := d.onGrid fun g => { g with offset := new, correction := g.correction + step, slewed := if start then 0 else g.slewed }
    if step.natAbs > us then d.timeEvent 0x05 [i8 (toNs step), b1 (flag (decide (step.natAbs > d.period)))] else d

/-- A rejected time input counted for TIME_INPUT_REJECT: 0 PTP, 1 SYNC_IN, 2 REF10M_IN with PPS_IN. [log 22: DEDUCED] -/
def Dev.rejectInput (d : Dev) (i : Nat) : Dev :=
  d.onGrid fun g => { g with rejects := put g.rejects i ((find g.rejects i).getD 0 + 1) }

/-- A source lost: its filter and its qualification start again (R35). [log 22: DEDUCED] -/
def Dev.loseSource (d : Dev) (s : TimeSource) : Dev :=
  let d := d.onGrid fun g => g.setFilter s {}
  let d := d.onGrid fun g => match s with
    | .syncIn => { g with lastSyncPulse := none }
    | .ref10m => { g with lastPps := none }
    | _ => g
  d.chooseSource

/-! ## PTP (R35, R36) -/

/-- An offset sample put through the PTP filter: held back when more than 10 µs from the running median; eight held-back
samples within 10 µs of one another restart the median; a held-back sample away from the others is discarded. `none` =
discarded. [log 22: DEDUCED] -/
def ptpFilter (f : SourceFilter) (offset : Int) (now : Nat) : Option SourceFilter :=
  if !f.samples.isEmpty && decide ((offset - median f.samples).natAbs > 10 * us) then
    if f.held.all fun h => decide ((offset - h).natAbs ≤ 10 * us) then
      let held := offset :: f.held
      let f := { f with streak := if f.qualified then f.streak else 0, lastAt := some now }
      some (if held.length ≥ 8 then { f with samples := held.take 5, held := [] } else { f with held := held })
    else none
  else
    let streak := f.streak + 1
    some { f with
      samples := (offset :: f.samples).take 5
      held := []
      streak := streak
      qualified := f.qualified || decide (streak ≥ 8)
      lastAt := some now }

/-- PTP_SYNC. -/
def execPtpSync (p : PtpSync) (s : State) : Answer := s.act fun d =>
  let d := d.clock p.now
  let ok := p.wellFormed && p.domain == d.field (brg + 0x28) 9 8 && p.port == d.field (brg + 0x28) 0 9 &&
    decide (-7 ≤ p.logSync) && decide (p.logSync ≤ 1)
  match if ok then ptpFilter d.grid.ptp p.offset p.now else none with
  | some f => ((d.onGrid fun g => { g with ptp := f }).steer .ptp).chooseSource
  | none =>
    let d := d.onGrid fun g => { g with ptp := { g.ptp with streak := if g.ptp.qualified then g.ptp.streak else 0 } }
    (d.count (brg + 0x70)).rejectInput 0

/-- PTP_SYNC_TIMEOUT. -/
def execPtpSyncTimeout (s : State) : Answer := s.act fun d => d.loseSource .ptp

/-! ## SYNC_IN, REF10M_IN with PPS_IN, PEER (R35) -/

/-- SYNC_IN_PULSE. The pulse is placed DELAY_PS before it is seen. [log 23: DEDUCED] -/
def execSyncInPulse (now : Nat) (widthPs : Nat) (s : State) : Answer := s.act fun d =>
  let d := d.clock now
  if widthPs < 100000 then d else
  let div := d.field (brg + 0x30) 0 16
  let at0 := now - d.field (brg + 0x30) 32 32
  let nominal := div * d.spanPs / d.spanN
  match d.grid.lastSyncPulse with
  | none => d.onGrid fun g => { g with lastSyncPulse := some at0, syncIn := { g.syncIn with streak := 0 } }
  | some last =>
    let gap := at0 - last
    if gap * 1000 < nominal * 999 || gap * 1000 > nominal * 1001 then (d.count (brg + 0x74)).rejectInput 1
    else
      let f := d.grid.syncIn
      let streak := f.streak + 1
      let offset : Int :=
        if d.grid.source = some .syncIn then
          let t := (at0 : Int) + d.grid.offset
          let j := d.nearest t
          let k := d.grid.anchorIndex + (j - d.grid.anchorIndex + div / 2) / max 1 div * div
          d.refEdge k - at0
        else 0
      let f := { f with streak := streak, qualified := f.qualified || decide (streak ≥ 3), samples := [offset], lastAt := some now }
      let d := d.onGrid fun g => { g with lastSyncPulse := some at0, syncIn := f }
      (d.steer .syncIn).chooseSource (d.breath % max 1 div == 0)

/-- SYNC_IN_TIMEOUT. -/
def execSyncInTimeout (s : State) : Answer := s.act fun d => d.loseSource .syncIn

/-- PPS_PULSE: the pulse names the second that BRG_PPS_SECONDS assigned, counting on. -/
def execPpsPulse (now : Nat) (widthPs : Nat) (s : State) : Answer := s.act fun d =>
  let d := d.clock now
  if widthPs < us then d else
  let second := d.grid.ppsSecond
  let next (d : Dev) := d.onGrid fun g => { g with lastPps := some now, ppsSecond := second + 1 }
  match d.grid.lastPps with
  | none => next d
  | some last =>
    let gap : Int := (now : Int) - last - sec
    if gap.natAbs > 100 * us then d.rejectInput 2
    else
      let f := d.grid.ref10m
      let streak := if f.carrier then f.streak + 1 else 0
      let f := { f with
        streak := streak
        qualified := f.carrier && (f.qualified || decide (streak ≥ 3))
        samples := [((second * sec : Nat) : Int) - now]
        lastAt := some now }
      ((next (d.onGrid fun g => { g with ref10m := f })).steer .ref10m).chooseSource

/-- PPS_TIMEOUT: 1.5 s without a pulse loses the source; the carrier stays judged. -/
def execPpsTimeout (s : State) : Answer := s.act fun d =>
  let carrier := d.grid.ref10m.carrier
  let d := d.onGrid fun g => { g with ref10m := { carrier := carrier }, lastPps := none }
  d.chooseSource

/-- REF10M_LOSS: 10 µs without a cycle. -/
def execRef10mLoss (s : State) : Answer := s.act fun d => d.loseSource .ref10m

/-- REF10M_QUALIFY: the frequency over the last 100 ms, in range within 50 ppm of 10 MHz. -/
def execRef10mQualify (hz : Nat) (s : State) : Answer := s.act fun d =>
  if 9999500 ≤ hz ∧ hz ≤ 10000500 then d.onGrid fun g => { g with ref10m := { g.ref10m with carrier := true } }
  else (d.loseSource .ref10m).rejectInput 2

/-- A heartbeat of the partner as a sample of source PEER (R35, R49). -/
def Dev.peerSample (d : Dev) (breath edgePs now : Nat) : Dev :=
  let skew : Int := (edgePs : Int) - d.grid.lastEdge
  let off := decide (breath ≠ d.breath) || decide (skew.natAbs > us)
  let n := if off then d.grid.skewCount + 1 else 0
  let d := d.onGrid fun g => { g with skewCount := n }
  let d := d.when (n == 3) fun d => d.timeEvent 0x09 [b8 breath, i8 (toNs skew)]
  let f := d.grid.peer
  if breath ≠ d.breath || skew.natAbs > d.period then
    d.onGrid fun g => { g with peer := { f with streak := if f.qualified then f.streak else 0 } }
  else
    let offset : Int := if d.grid.source = some .peer then d.refEdge (d.nearest ((edgePs : Int) + d.grid.offset)) - edgePs else -skew
    let streak := f.streak + 1
    let f := { f with
      samples := (offset :: f.samples).take 5
      streak := streak
      qualified := f.qualified || decide (streak ≥ 3)
      lastAt := some now }
    ((d.onGrid fun g => { g with peer := f }).steer .peer).chooseSource

/-- PEER_TIME_TIMEOUT. -/
def execPeerTimeTimeout (s : State) : Answer := s.act fun d => d.loseSource .peer

/-- REVERT_HOLD_EXPIRY: the returning source has stayed qualified for REVERT_HOLD seconds (R37). -/
def execRevertHoldExpiry (s : State) : Answer := s.act fun d =>
  match d.grid.reverting with
  | some t => if (d.candidates true).head? = some t then d.changeSource t else d.onGrid fun g => { g with reverting := none }
  | none => d

/-- TIME_INPUT_REJECT: the count of one input in the last second. -/
def execTimeInputReject (input : Nat) (s : State) : Answer := s.act fun d =>
  let n := (find d.grid.rejects input).getD 0
  if n = 0 then d else
    (d.onGrid fun g => { g with rejects := drop g.rejects input }).timeEvent 0x08 [b1 input, b4 n]

/-! ## Boundary clock (R36) -/

/-- A PTP message the module sends as master out of a loop port: type, domain, sequence and a time in ps. [log 25: PRESUMED] -/
def ptpMessage (type domain seq time : Nat) (body : Bytes) : Bytes :=
  beBytes 1 type ++ beBytes 1 2 ++ beBytes 2 (44 + body.length) ++ beBytes 1 domain ++ zeros 25 ++ beBytes 2 seq ++ zeros 2 ++
    beBytes 6 (time / sec) ++ beBytes 4 (time % sec / 1000) ++ body

/-- Loop ports on which the module is master: LOOP_MASTER set and not the slave port. -/
def Dev.masterPorts (d : Dev) : List Nat :=
  if d.field (brg + 0x28) 22 1 = 1 then [256, 257, 258, 259].filter fun p => p != d.field (brg + 0x28) 0 9 else []

/-- The module's own reference time of a local instant. -/
def Dev.refTime (d : Dev) (now : Nat) : Nat := ((now : Int) + d.grid.offset).toNat

/-- PTP_DELAY_REQ: answered on a loop port where the module is master, with the receive time. [log 25: PRESUMED] -/
def execPtpDelayReq (port domain : Nat) (source : Bytes) (seq rx : Nat) (s : State) : Answer := s.act fun d =>
  let d := d.clock rx
  if d.masterPorts.contains port && domain == d.field (brg + 0x28) 9 8 then
    d.emit (.frame port (ptpMessage 9 domain seq (d.refTime rx) (padTo 10 source)))
  else d.count (brg + 0x70)

/-- PTP_MASTER_SYNC: Sync and Announce out of every loop port on which the module is master. [log 25: PRESUMED] -/
def execPtpMasterSync (now : Nat) (s : State) : Answer := s.act fun d =>
  let d := d.clock now
  let n := d.grid.masterSeq % 2 ^ 16
  let domain := d.field (brg + 0x28) 9 8
  let send (d : Dev) (p : Nat) :=
    (d.emit (.frame p (ptpMessage 0 domain n (d.refTime now) []))).emit (.frame p (ptpMessage 11 domain n (d.refTime now) (zeros 20)))
  (d.masterPorts.foldl send d).onGrid fun g => { g with masterSeq := g.masterSeq + 1 }

/-! ## The edge itself -/

/-- BRG_STATUS (R50). [log 18: DEDUCED] -/
def Dev.brgStatus (d : Dev) : Nat :=
  let m := match d.grid.mode with
    | .freerun => 0
    | .acquiring => 1
    | .locked => 2
    | .holdover => 3
  let ns := max (-(2 ^ 31 - 1)) (min (2 ^ 31 - 1) (toNs d.grid.offset))
  m + 4 * codeOf d.grid.source + 64 * flag (decide (d.grid.correction ≠ 0)) + 2 ^ 32 * unsignedOf ns 32

/-- The instant of the next edge: the accumulator of R32, less the servo's correction of this breath (R39). [log 7: DEDUCED] -/
def Dev.planEdge (d : Dev) : Dev :=
  let total := d.grid.remainder + d.spanPs
  let len := total / d.spanN
  let limit : Int := (d.period / 1000 : Nat)
  let c := max (-limit) (min limit d.grid.correction)
  let left := d.grid.correction - c
  let done := decide (d.grid.correction ≠ 0) && decide (left = 0)
  let slewed := d.grid.slewed + c
  let next := ((d.grid.lastEdge + len : Nat) : Int) - c
  let d := d.onGrid fun g => { g with
    remainder := total % d.spanN, nextEdge := next.toNat, correction := left, slewed := if done then 0 else slewed }
  if done then
    let d := if d.grid.mode = .locked then d.onGrid fun g => { g with remainder := d.remainderAt (d.nearest (next + g.offset)) } else d
    d.timeEvent 0x06 [i8 (toNs slewed)]
  else d

/-- The re-seed that lands at the latest edge (R41), or its consumption while the grid is not LOCKED (R509). [log 24: DEDUCED] -/
def Dev.reseed (d : Dev) : Dev :=
  let n := d.breath
  if d.grid.mode = .locked then
    let target := (d.grid.lastEdge : Int) + d.grid.offset + d.period
    let j := d.refIndex target
    let j := if d.refEdge j < target then j + 1 else j
    let label := max (n + 1) j.toNat
    let d := d.onGrid fun g => { g with
      nextEdge := (d.refEdge j - g.offset).toNat, correction := 0, slewed := 0, seamLabel := some label, seamDue := false,
      labelOffset := ((g.labelOffset : Int) + label - j).toNat, remainder := d.remainderAt j }
    d.timeEvent 0x07 [b8 (n + 1), b8 label]
  else d.timeEvent 0x07 [b8 (n + 1), b8 (n + 1)]

/-- A change of span or epoch that landed at the latest edge: the reference grid re-anchored there, or taken afresh from
the epoch (R33). A re-anchored grid continues without a correction. [log 24: DEDUCED] -/
def Dev.reanchor (d : Dev) (span epoch : Bool) : Dev :=
  match epoch, d.grid.source with
  | true, some .ptp | true, some .ref10m =>
    let d := d.onGrid fun g => { g with anchorTime := d.epoch (g.source.getD .ptp), anchorIndex := 0, epochHeld := false }
    let t := (d.grid.lastEdge : Int) + d.grid.offset
    d.onGrid fun g => { g with correction := t - d.refEdge (d.nearest t) }
  | _, _ =>
    let d := d.when epoch fun d => d.onGrid fun g => { g with epochHeld := true }
    if span then d.onGrid fun g => { g with
      anchorTime := (g.lastEdge : Int) + g.offset, anchorIndex := g.breath, remainder := 0, correction := 0, slewed := 0 }
    else d

/-- SYNC_OUT: a pulse at an edge whose label is a multiple of DIV, OFFSET_PS after it; WIDTH_NS 0 is half of DIV periods (R47). -/
def Dev.syncOut (d : Dev) : Dev :=
  let div := max 1 (d.field (brg + 0x38) 1 16)
  let start := (d.grid.lastEdge : Int) + signedOf (d.field (brg + 0x38) 32 32) 32
  let ns := d.field (brg + 0x38) 17 15
  let width := if ns = 0 then div * d.spanPs / (2 * d.spanN) else ns * 1000
  if d.field (brg + 0x38) 0 1 = 1 && d.breath % div == 0 then d.emit (.syncOut d.breath start width) else d

end Sys2Proof.Machine
end

