-- ==== Sys2Proof/Machine/Frames.lean ====
section
/-! DEFINITION. Frames as they arrive: Ethernet, IP and UDP (R55, R59), and the neighbour requests the module answers (R59, R498). -/

namespace Sys2Proof.Machine

open Sys2Proof RegisterMap

/-- A frame taken apart: source and destination MAC, EtherType, the tag's VLAN where there is one, and what follows. -/
structure Ether where
  dst : Nat
  src : Nat
  vlan : Option Nat
  type : Nat
  payload : Bytes
  deriving DecidableEq, Repr

/-- An Ethernet II frame with no tag or one IEEE 802.1Q tag. [log 49: DEDUCED] -/
def etherOf (b : Bytes) : Ether :=
  let tagged := beNat (slice b 12 2) == 0x8100
  let at' := if tagged then 16 else 12
  { dst := beNat (slice b 0 6), src := beNat (slice b 6 6), vlan := if tagged then some (beNat (slice b 14 2) % 4096) else none
    type := beNat (slice b at' 2), payload := b.drop (at' + 2) }

/-- An IP packet: addresses, protocol and payload; IPv4 addresses stand in IPv4-mapped form. -/
structure Ip where
  v4 : Bool
  src : Nat
  dst : Nat
  proto : Nat
  payload : Bytes
  deriving DecidableEq, Repr

/-- IPv4-mapped form of an IPv4 address. -/
def mapped (a : Nat) : Nat := 0xFFFF * 2 ^ 32 + a % 2 ^ 32

/-- An IPv6 packet without extension headers, or an IPv4 packet with IHL 5 and no fragmentation; padding after it is cut. [log 49: DEDUCED] -/
def ipOf (e : Ether) : Option Ip :=
  let b := e.payload
  if e.type = 0x86DD then
    let len := beNat (slice b 4 2)
    if byteAt b 0 / 16 ≠ 6 ∨ b.length < 40 + len then none
    else some { v4 := false, src := beNat (slice b 8 16), dst := beNat (slice b 24 16), proto := byteAt b 6, payload := slice b 40 len }
  else if e.type = 0x0800 then
    let len := beNat (slice b 2 2)
    let fragment := beNat (slice b 6 2) % 0x4000
    if byteAt b 0 ≠ 0x45 ∨ fragment ≠ 0 ∨ len < 20 ∨ b.length < len then none
    else some { v4 := true, src := mapped (beNat (slice b 12 4)), dst := mapped (beNat (slice b 16 4)), proto := byteAt b 9
                payload := slice b 20 (len - 20) }
  else none

/-- An IPv4 packet that R55 discards: options or a fragment. -/
def discardedIp (e : Ether) : Bool :=
  e.type == 0x0800 && (byteAt e.payload 0 != 0x45 || beNat (slice e.payload 6 2) % 0x4000 != 0)

/-- A UDP datagram. -/
structure Udp where
  sport : Nat
  dport : Nat
  payload : Bytes
  deriving DecidableEq, Repr

/-- The UDP datagram of an IP packet with its length and checksum right; a zero checksum only on IPv4. [log 49: DEDUCED] -/
def udpOf (p : Ip) : Option Udp :=
  let b := p.payload
  let len := beNat (slice b 4 2)
  let sum := beNat (slice b 6 2)
  let ok := if sum = 0 then p.v4
    else
      let src := if p.v4 then p.src % 2 ^ 32 else p.src
      let dst := if p.v4 then p.dst % 2 ^ 32 else p.dst
      checksum (pseudoHeader src dst len p.v4 ++ b) == 0
  if p.proto ≠ 17 ∨ b.length < 8 ∨ len ≠ b.length ∨ ok = false then none
  else some { sport := beNat (slice b 0 2), dport := beNat (slice b 2 2), payload := b.drop 8 }

/-! ## Neighbour requests (R59, R498) -/

/-- The frame that answers a neighbour request to an address, where `bytes` is one of the kind named. `mac`, `v4` and `v6` are the
port's own. -/
def neighbourAnswer (mac v4 v6 : Nat) (tag : Bytes) (kind : Neighbour) (bytes : Bytes) : Option Bytes :=
  let e := etherOf bytes
  let b := e.payload
  let frame (type : Nat) (payload : Bytes) : Bytes := beBytes 6 e.src ++ beBytes 6 mac ++ tag ++ beBytes 2 type ++ payload
  let icmp6 (dst : Nat) (body : Bytes) : Bytes :=
    let sum := checksum (beBytes 16 v6 ++ beBytes 16 dst ++ beBytes 4 body.length ++ beBytes 4 58 ++ body)
    frame 0x86DD (ipPacket v6 dst 58 false (patch body 2 (beBytes 2 sum)))
  match kind with
  | .arp =>
    if e.type = 0x0806 ∧ beNat (slice b 0 8) = 0x0001080006040001 ∧ beNat (slice b 24 4) = v4 then
      some (frame 0x0806 (beBytes 8 0x0001080006040002 ++ beBytes 6 mac ++ beBytes 4 v4 ++ slice b 8 10))
    else none
  | .neighbourSolicitation => match ipOf e with
    | some p =>
      if p.v4 = false ∧ p.proto = 58 ∧ byteAt p.payload 0 = 135 ∧ beNat (slice p.payload 8 16) = v6 then
        some (icmp6 p.src (beBytes 4 0x88000000 ++ beBytes 4 0x60000000 ++ beBytes 16 v6 ++ beBytes 2 0x0201 ++ beBytes 6 mac))
      else none
    | none => none
  | .icmpEcho => match ipOf e with
    | some p =>
      if p.v4 ∧ p.proto = 1 ∧ byteAt p.payload 0 = 8 ∧ p.dst = mapped v4 then
        let body := zeros 4 ++ p.payload.drop 4
        some (frame 0x0800 (ipPacket v4 (p.src % 2 ^ 32) 1 true (patch body 2 (beBytes 2 (checksum body)))))
      else none
    | none => none
  | .icmpv6Echo => match ipOf e with
    | some p =>
      if p.v4 = false ∧ p.proto = 58 ∧ byteAt p.payload 0 = 128 ∧ p.dst = v6 then
        some (icmp6 p.src (beBytes 4 0x81000000 ++ p.payload.drop 4))
      else none
    | none => none

/-- Requests of this second counted: `none` where the limit of 100 has been reached. -/
def oneOfHundred (limit now : Nat) (seen : Nat × Nat) : Option (Nat × Nat) :=
  let s := now / sec
  let n := if seen.1 = s then seen.2 else 0
  if n < limit then some (s, n + 1) else none

end Sys2Proof.Machine
end

