-- ==== Sys2Proof/Machine/Ports.lean ====
section
/-! DEFINITION. Host and loop ports: link state, optics, fences and neighbour requests (R59, R83 to R85), and the management Ethernet
port (R498, R499). -/

namespace Sys2Proof.Machine

open Sys2Proof RegisterMap

/-! ## Link state (R83, R84) -/

/-- A port event. -/
def Dev.portEvent (d : Dev) (port code : Nat) (data : List Item) : Dev := d.post Cls.port code port data

/-- A port's link is gone: its status and its egress queues (R335). [log 98: DEDUCED] -/
def Dev.portLost (d : Dev) (port : Nat) : Dev :=
  if !(d.port port).up then d
  else ((d.onPort port fun p => { p with up := false }).setField (hpcPort port 4) 0 1 0).flushPoint port

/-- A port goes down: cause 0 loss of lock, 1 fenced, 2 disabled. [log 98: DEDUCED] -/
def Dev.portDown (d : Dev) (port cause : Nat) : Dev :=
  if !(d.port port).up then d else (d.portEvent port 0x02 [b1 cause]).portLost port

/-- PORT_UP: 100 ms of continuous alignment lock on an enabled port. [log 98: DEDUCED] -/
def execPortUp (port : Nat) (s : State) : Answer := s.act fun d =>
  let c := d.reg (hpcPort port 0)
  if port ≥ 260 || !bitOf c 0 || (d.port port).fenced || (d.port port).up then d else
  let d := d.onPort port fun p => { p with up := true }
  (d.setField (hpcPort port 4) 0 3 (1 + 2 * bitsOf c 1 2)).portEvent port 0x01 [b1 (bitsOf c 1 2), b1 (bitsOf c 3 2)]

/-- PORT_DOWN: 2 ms without lock. -/
def execPortDown (port : Nat) (s : State) : Answer := s.act fun d => d.portDown port 0

/-- A port fenced: it stays so until module reset. -/
def Dev.fencePort (d : Dev) (port : Nat) : Dev := (d.onPort port fun p => { p with fenced := true }).setField (hpcPort port 4) 3 1 1

/-- PORT_OPTICS_FAULT: a failed optical engine, or one with no sample for 100 ms, fences the 16 ports of its connector. -/
def execPortOpticsFault (engine fault : Nat) (s : State) : Answer := s.act fun d =>
  if engine ≥ 16 then d else
  (List.range 16).foldl (fun d i =>
    let port := 16 * engine + i
    if (d.port port).fenced then d else ((d.fencePort port).portEvent port 0x04 [b4 engine, b1 fault]).portLost port) d

/-- PORT_MAC_FAULT: a failed MAC fences its own port. [log 98: DEDUCED] -/
def execPortMacFault (port : Nat) (s : State) : Answer := s.act fun d =>
  if port ≥ 260 || (d.port port).fenced then d
  else ((d.fencePort port).portEvent port 0x02 [b1 1]).portLost port

/-! ## Optical monitors (R83) -/

/-- OPTICS_SAMPLE: RX_POWER is the median of the last 5 samples; below RX_LOW it is reported when it falls below. [log 63: DEDUCED] -/
def execOpticsSample (port : Nat) (rxPower txBias temp : Int) (s : State) : Answer := s.act fun d =>
  if port ≥ 260 then d else
  let rx := (rxPower :: (d.port port).rxPower).take 5
  let temps := (temp :: (d.port port).temps).take 5
  let power := median rx
  let low := decide (power < signedOf (d.reg (hpcPort port 0x30)) 16)
  let was := (d.port port).rxLow
  let d := d.onPort port fun p => { p with rxPower := rx, temps := temps, rxLow := low }
  let d := d.setReg (hpcPort port 0x10) (unsignedOf power 16 + unsignedOf txBias 16 * 2 ^ 16 + unsignedOf (median temps) 16 * 2 ^ 32)
  if low && !was then d.portEvent port 0x03 [i4 power] else d

/-- OPTICS_SAMPLE_TIMEOUT: no sample for 100 ms is a fault of the port's optical engine (R475); its fault code is open. [log 63: DEDUCED] -/
def execOpticsSampleTimeout (port : Nat) (s : State) : Answer := s.act fun d =>
  if port ≥ 256 then d else
  let engine := port / 16
  (List.range 16).foldl (fun d i =>
    let p := 16 * engine + i
    if (d.port p).fenced then d
    else ((d.fencePort p).portEvent p 0x04 [b4 engine, b1 (Config.opticsTimeoutCode engine)]).portLost p) d

/-! ## Counts and neighbours (R59, R85) -/

/-- PORT_DROP_SUMMARY: the end of a second of a port. -/
def execPortDropSummary (port : Nat) (s : State) : Answer := s.act fun d =>
  let p := d.port port
  if p.secondMalformed + p.secondPolice + p.secondFetch = 0 then d else
  (d.onPort port fun p => { p with secondMalformed := 0, secondPolice := 0, secondFetch := 0 }).portEvent port 0x05
    [b4 p.secondMalformed, b4 p.secondPolice, b4 p.secondFetch]

/-- A frame of the module's own handed to a port's control service. -/
def Dev.sendControl (d : Dev) (port : Nat) (frame : Bytes) : Dev := d.transmit port 0 0 (frame.length - 54) frame

/-- The kind of neighbour request that a frame is, where it is one. -/
def requestKind (b : Bytes) : Option Neighbour :=
  let e := etherOf b
  if e.type = 0x0806 then some .arp
  else match ipOf e with
    | some p =>
      if p.v4 then (if p.proto = 1 ∧ byteAt p.payload 0 = 8 then some .icmpEcho else none)
      else if p.proto ≠ 58 then none
      else if byteAt p.payload 0 = 135 then some .neighbourSolicitation
      else if byteAt p.payload 0 = 128 then some .icmpv6Echo else none
    | none => none

/-- NEIGHBOUR_REQUEST: answered for the port's own addresses, at most 100 a second; an echo request without ICMP_EN is a
frame like any other. -/
def execNeighbourRequest (f : Frame) (kind : Neighbour) (s : State) : Answer := s.act fun d =>
  let d := d.clock f.now
  let echo := kind = .icmpEcho ∨ kind = .icmpv6Echo
  if !d.pointUp f.port || f.port ≥ 260 || !f.fcsOk then d
  else if echo ∧ d.field (hpcPort f.port 0) 18 1 = 0 then
    if requestKind f.bytes = some kind then (d.total (hpcPort f.port 0x28) 32 1).count (hpcPort f.port 0x24) else d
  else match neighbourAnswer (Config.portMac f.port) (Config.portAddress4 f.port) (Config.portAddress f.port) (d.vlanTag f.port) kind f.bytes,
      oneOfHundred 100 f.now (d.port f.port).answers with
    | some b, some n => (d.onPort f.port fun p => { p with answers := n }).sendControl f.port b
    | _, _ => d

/-! ## The management Ethernet port (R498, R499) -/

/-- MAC address of the management port: the fused base address plus the slot. -/
def Dev.mgmtMac (d : Dev) : Nat := Config.portMac 1000 + d.slot

/-- An address register pair as an IP address: its 16 bytes in order. [log 99: DEDUCED] -/
def Dev.addressAt (d : Dev) (addr : Nat) : Nat := beNat (leBytes 8 (d.reg addr) ++ leBytes 8 (d.reg (addr + 8)))

/-- A frame that R499 accepts. [log 99: DEDUCED] -/
def Dev.mgmtAccepts (d : Dev) (b : Bytes) (fcsOk : Bool) : Bool :=
  let dst := beNat (slice b 0 6)
  fcsOk && decide (60 ≤ b.length) && decide (b.length ≤ 1514) &&
    (dst == d.mgmtMac || dst == 2 ^ 48 - 1 || dst / 2 ^ 24 == 0x3333FF)

/-- MGMT_FRAME_RX: a frame of the 1000BASE-T port; it changes nothing but the count of those discarded. [log 99: DEDUCED] -/
def execMgmtFrameRx (frame : Bytes) (fcsOk : Bool) (now : Nat) (s : State) : Answer := s.act fun d =>
  let d := d.clock now
  if !d.mgmt.link || d.field 0x500 0 1 = 0 then d
  else if !d.mgmtAccepts frame fcsOk then d.count 0x504
  else
    let own := d.addressAt 0x510
    let v4 := if isV4 own then own % 2 ^ 32 else 0
    match (requestKind frame).bind fun k => neighbourAnswer d.mgmtMac v4 own [] k frame, oneOfHundred 100 now d.mgmt.answered with
    | some b, some n => ({ d with mgmt := { d.mgmt with answered := n } }).emit (.management b)
    | _, _ => d

/-- EVENT_MIRROR: up to 32 waiting records in one datagram to CTL_MGMT_PEER; with the link down, or past 1,000 datagrams a
second, they are dropped and counted. [log 99: DEDUCED] -/
def execEventMirror (now : Nat) (s : State) : Answer := s.act fun d =>
  let d := d.clock now
  let l := d.mgmt.queue.take 32
  if l.isEmpty then d else
  let d := { d with mgmt := { d.mgmt with queue := d.mgmt.queue.drop 32 } }
  match d.mgmt.link, oneOfHundred 1000 now d.mgmt.sent with
  | true, some n =>
    let src := d.addressAt 0x510
    let dst := d.addressAt 0x520
    let v4 := isV4 dst
    let short (a : Nat) : Nat := if v4 then a % 2 ^ 32 else a
    let udp := udpDatagram (short src) (short dst) v4 (Config.ipField 3 % 65536) (d.field 0x500 16 16) (l.map EventRecord.bytes).flatten
    let frame := beBytes 6 (Config.neighbourMac dst) ++ beBytes 6 d.mgmtMac ++ beBytes 2 (if v4 then 0x0800 else 0x86DD) ++
      ipPacket (short src) (short dst) 17 v4 udp
    ({ d with mgmt := { d.mgmt with sent := n } }).emit (.management frame)
  | _, _ => d.count 0x504 l.length

/-- MGMT_LINK_UP: 1 s of continuous link pulses. -/
def execMgmtLinkUp (s : State) : Answer := s.act fun d => { d with mgmt := { d.mgmt with link := true } }

/-- MGMT_LINK_DOWN: 750 ms without link pulses. -/
def execMgmtLinkDown (s : State) : Answer := s.act fun d => { d with mgmt := { d.mgmt with link := false } }

end Sys2Proof.Machine
end

