-- ==== Sys2Proof/Machine/Trust.lean ====
section
/-! DEFINITION. Identity, measurements, attestation, the owner lock and firmware update (R365 to R380). -/

namespace Sys2Proof.Machine

open Sys2Proof RegisterMap

/-! ## Measurements (R367, R368) -/

/-- A measurement register: 64 zero bytes after a module reset. [log 84: DESIGN CHOICE] -/
def Dev.measured (d : Dev) (r : Nat) : Bytes := (find d.trust.registers r).getD (zeros 64)

/-- SHAKE256 to 64 bytes. -/
def digest64 (b : Bytes) : Bytes := padTo 64 (shake256 b 64)

/-- One extension of a measurement register, with its log entry while the log has room. [log 84: DESIGN CHOICE] -/
def Dev.extend (d : Dev) (r type detail : Nat) (digest : Bytes) : Dev :=
  let d := d.onTrust fun t => { t with registers := put t.registers r (digest64 (d.measured r ++ digest)) }
  if d.trust.log.length < 16384 then
    d.onTrust fun t => { t with log := { reg := r, type := type, breath := d.breath, detail := detail, digest := digest } :: t.log }
  else if d.trust.truncated then d
  else (d.onTrust fun t => { t with truncated := true }).post Cls.security 0x23 0 [b8 d.breath]

/-- The 96 bytes of a log entry. [log 84: DESIGN CHOICE] -/
def Measurement.bytes (seq : Nat) (m : Measurement) : Bytes :=
  leBytes 1 m.reg ++ leBytes 1 m.type ++ zeros 2 ++ leBytes 4 seq ++ leBytes 8 m.breath ++ leBytes 8 m.detail ++ padTo 64 m.digest ++ zeros 8

/-- The measurement log, oldest entry first. -/
def Dev.measurementLog (d : Dev) : Bytes :=
  let l := d.trust.log.reverse
  ((List.range l.length).zip l).foldr (fun p acc => p.2.bytes p.1 ++ acc) []

/-! ## The manifest (R373) -/

/-- Bytes of a manifest. -/
def manifestBytes : Nat := 30432

/-- Maximum LENGTH of a part TYPE. -/
def partMax : Nat → Nat
  | 1 => 3 * 2 ^ 20
  | 2 => 96 * 2 ^ 20
  | 3 => 4 * 2 ^ 20
  | 4 => 2 ^ 20
  | 5 => 2 ^ 20
  | 6 => 16 * 2 ^ 20
  | _ => 0

/-- VERSION of a manifest. -/
def manifestVersion (m : Bytes) : Nat := leAt m 8 4
/-- SVN of a manifest. -/
def manifestSvn (m : Bytes) : Nat := leAt m 12 4
/-- PEER_MIN of a manifest. -/
def manifestPeerMin (m : Bytes) : Nat := leAt m 20 4

/-- A manifest passes its signature check and every listed range. -/
def Dev.manifestOk (d : Dev) (m : Bytes) : Bool :=
  m.length == manifestBytes && leAt m 0 4 == 0x4D465A44 && leAt m 4 2 == 1 && byteAt m 6 == 6 &&
  decide (d.trust.svnMin ≤ manifestSvn m) &&
  ([1, 2, 3, 4, 5, 6].all fun t => (partOf m t).isSome && decide (1 ≤ partLength m t) && decide (partLength m t ≤ partMax t)) &&
  Config.manifestSigned (slice m 0 640) (slice m 640 29792)

/-! ## Staging (R374, R375) -/

/-- Bitmap of the verified parts. -/
def Trust.verifiedMap (t : Trust) : Nat := bitmap 6 fun k => t.verified.contains (k + 1)

/-- Code of STAGE_STATE. -/
def StageState.code : StageState → Nat
  | .empty => 0
  | .manifest => 1
  | .ready => 2
  | .activating => 3

/-- STAGE_STATE set; FW_STAGED on a change. -/
def Dev.setStage (d : Dev) (x : StageState) : Dev :=
  if d.trust.stage = x then d else
    let d := d.onTrust fun t => { t with stage := x }
    d.post Cls.control 0x60 0 [b1 x.code, b1 d.trust.verifiedMap]

/-- READY while all six parts are verified and the partner holds the whole recovery copy. [log 85: DESIGN CHOICE] -/
def Dev.judgeStage (d : Dev) : Dev :=
  let whole := d.trust.verifiedMap == 63 && d.trust.partnerCopy
  if d.trust.stage = .manifest ∧ whole = true then d.setStage .ready
  else if d.trust.stage = .ready ∧ whole = false then d.setStage .manifest
  else d

/-- A range put into a rising list of disjoint ranges. -/
def cover (lo hi : Nat) : List (Nat × Nat) → List (Nat × Nat)
  | [] => [(lo, hi)]
  | (a, b) :: t => if hi < a then (lo, hi) :: (a, b) :: t else if b < lo then (a, b) :: cover lo hi t else cover (min lo a) (max hi b) t

/-- Bytes that some chunks cover. -/
def coveredBytes (l : List (Nat × Bytes)) : Nat :=
  (l.foldl (fun acc c => cover c.1 (c.1 + c.2.length) acc) []).foldl (fun n r => n + (r.2 - r.1)) 0

/-- The image chunks make, a later one over an earlier one. -/
def assemble (length : Nat) (l : List (Nat × Bytes)) : Bytes := l.foldr (fun c b => patch b c.1 c.2) (zeros length)

/-- Everything staged discarded. [log 86: DEDUCED] -/
def Dev.discardStaged (d : Dev) : Dev :=
  d.onTrust fun t => { t with manifest := [], chunks := [], verified := [], partnerCopy := false }

/-- A recovery copy of a staged part sent to a standby-ready partner (R375). -/
def Dev.sendCopy (d : Dev) (part : Nat) : Dev := d.when d.standbyReady fun d => d.emit (.peer (.recoveryCopy part))

/-- The manifest and every verified part sent to a partner that has become standby-ready (R375). -/
def Dev.sendCopies (d : Dev) : Dev :=
  if d.trust.stage = .empty then d else d.trust.verified.foldl (fun d k => d.sendCopy k) (d.sendCopy 0)

/-- Field tests of FW_STAGE on the entry. [log 85: DESIGN CHOICE] -/
def checkFwStage (entry : Bytes) (d : Dev) : Verdict :=
  let part := byteAt entry 8
  let off := leAt entry 36 8
  let len := leAt entry 16 4
  (require (decide (d.trust.stage ≠ .activating)) Status.admissionRefused 0).andThen <|
  (fields [(8, decide (part ≤ 6))]).andThen <|
  if part = 0 then fields [(16, len == manifestBytes), (36, off == 0)]
  else
    (fields [(16, decide (1 ≤ len) && decide (len ≤ 4194304)), (8, decide (d.trust.stage ≠ .empty))]).andThen <|
    require (decide (off + len ≤ partLength d.trust.manifest part)) Status.outOfRange (partLength d.trust.manifest part)

/-- FW_STAGE carried out: the module after it, its status and RESULT. [log 85: DESIGN CHOICE] -/
def Dev.stage (d : Dev) (entry payload : Bytes) : Dev × Nat × Nat :=
  let part := byteAt entry 8
  let off := leAt entry 36 8
  if part = 0 then
    let d := d.discardStaged
    if d.manifestOk payload then
      (((d.onTrust fun t => { t with manifest := payload }).setStage .manifest).sendCopy 0, Status.ok, 0)
    else (d.setStage .empty, Status.accessDenied, 0)
  else
    let old := (find d.trust.chunks part).getD []
    let length := partLength d.trust.manifest part
    let new := (off, payload) :: old
    let missing := length - coveredBytes new
    let d := d.onTrust fun t => { t with chunks := put t.chunks part new, verified := t.verified.erase part }
    if missing ≠ 0 then (d, Status.ok, missing)
    else
      let got := digest64 (assemble length new)
      let want := partDigest d.trust.manifest part
      if got = want then
        let d := (d.onTrust fun t => { t with verified := part :: t.verified }).sendCopy part
        (d.judgeStage, Status.ok, 2 ^ 32)
      else
        let d := d.onTrust fun t => { t with chunks := drop t.chunks part }
        let d := d.post Cls.control 0x64 part [b8 (leAt want 0 8), b8 (leAt got 0 8)]
        (d.judgeStage, Status.accessDenied, length)

/-! ## Activation (R376 to R378) -/

/-- PARTNER's running VERSION, from its last heartbeat. -/
def Peer.partnerVersion (p : Peer) : Nat := (p.last.map Heartbeat.version).getD 0

/-- Refusal conditions of FW_ACTIVATE, in order: the code of the first that holds (R376). -/
def Dev.activationRefusal (d : Dev) (digest : Nat) : Option Nat :=
  let volts := d.reading 0
  let conditions : List (Nat × Bool) := [
    (1, decide (d.trust.stage ≠ .ready) || leAt (digest64 d.trust.manifest) 0 8 != digest),
    (2, d.memory.windows.any fun w => decide (w.2.mode = .armed)),
    (3, !d.power.full),
    (4, decide (volts < 44000) || decide (58000 < volts)),
    (5, d.field 0x40 0 1 == 1),
    (6, d.stripes.sets.any fun t => decide (t.2.state = .exposed) || t.2.redundancy == 0),
    (7, !d.standbyReady),
    (8, decide (manifestSvn d.trust.manifest < d.trust.svnMin)),
    (9, decide (d.peer.partnerVersion < manifestPeerMin d.trust.manifest))]
  (conditions.find? fun c => c.2).map Prod.fst

/-- Checks of FW_ACTIVATE at commit; at admission only its fields are tested. -/
def commitFwActivate (r : Rec) (d : Dev) : Verdict :=
  match d.activationRefusal (leAt r.entry 8 8) with
  | some code => some (Status.updateRefused, code)
  | none => none

/-- Effect of FW_ACTIVATE: step 1 of R377. [log 86: DEDUCED] -/
def applyFwActivate (_r : Rec) (d : Dev) : Dev × Nat :=
  let m := d.trust.manifest
  let d := d.extend 8 3 (manifestVersion m) (digest64 (slice m 0 64))
  let d := d.onTrust fun t => { t with activatedAt := d.now, oldVersion := manifestVersion t.running, boreSeq := (t.boreSeq + 1) % 2 ^ 32 }
  (d.setStage .activating, 0)

/-- FW_SLOT_WRITE_DONE: step 3 of R377 ended; a slot that could not be read back stays INCOMPLETE and is written again
every 10 s (R378). Held outputs keep their values through the restarts of step 4. -/
def execFwSlotWriteDone (ok : Bool) (s : State) : Answer := s.act fun d =>
  if d.trust.stage ≠ .activating then d
  else if ok then d.onTrust fun t => { t with slotIncomplete := false, slotTries := 0 }
  else (d.onTrust fun t => { t with slotIncomplete := true, slotTries := 3 }).post Cls.control 0x62 0 [b4 3]

/-- FW_SLOT_RETRY. -/
def execFwSlotRetry (ok : Bool) (s : State) : Answer := s.act fun d =>
  if !d.trust.slotIncomplete then d
  else if ok then d.onTrust fun t => { t with slotIncomplete := false, slotTries := 0 }
  else
    let n := d.trust.slotTries + 1
    (d.onTrust fun t => { t with slotTries := n }).post Cls.control 0x62 0 [b4 n]

/-- FW_ACTIVATED: the new Drone image is measured into M1 and runs; versions are updated and staging is empty (R377). [log 86: DEDUCED] -/
def execFwActivated (now : Nat) (s : State) : Answer := s.act fun d =>
  let d := d.clock now
  if d.trust.stage ≠ .activating then d else
  let m := d.trust.manifest
  let d := d.extend 1 0 (partVersion m 1) (partDigest m 1)
  let again := partDigest m 1 != partDigest d.trust.running 1
  let d := d.onTrust fun t => { t with
    running := m, svnMin := max t.svnMin (leAt m 16 4), akPending := t.akPending || again }
  let d := (d.discardStaged).setStage .empty
  d.post Cls.control 0x61 0 [b4 d.trust.oldVersion, b4 (manifestVersion m), b4 ((now - d.trust.activatedAt) / ms)]

/-- RECOVERY_COPY_DONE: the partner holds the whole recovery copy (R375). -/
def execRecoveryCopyDone (s : State) : Answer := s.act fun d =>
  if d.trust.stage = .manifest ∧ d.trust.verifiedMap = 63 ∧ d.standbyReady then
    (d.onTrust fun t => { t with partnerCopy := true }).judgeStage
  else d

/-! ## The loader (R367, R379) -/

/-- The boot extensions, and the Drone started: phase RESTORE begins (R367, R486). -/
def Dev.bootDrone (d : Dev) (m : Bytes) : Dev :=
  let d := d.extend 0 0 0 (Config.bootDigest 0)
  let d := [1, 2, 3, 4, 5, 6].foldl (fun (d : Dev) k => d.extend k 0 (partVersion m k) (partDigest m k)) d
  let d := d.extend 8 0 (manifestVersion m) (digest64 (slice m 0 64))
  let lock := d.field 0x40 0 1
  let d := d.extend 9 4 0 (digest64 (leBytes 4 lock ++ leBytes 4 0 ++ leBytes 8 d.breath))
  let again := partDigest m 1 != partDigest d.trust.running 1
  let d := d.onTrust fun t => { t with running := m, bootCount := t.bootCount + 1, akPending := t.akPending || again }
  let d := d.onGrid fun g => { g with lastEdge := d.now, nextEdge := d.now + d.period }
  ((d.onStart fun x => { x with phase := 3, fail := 0 }).post Cls.time 0x03 0 []).startBays

/-- LOADER_SLOT_CHECK: a good slot is measured and started; any other waits for the partner's copy, its bays off. -/
def execLoaderSlotCheck (good : Bool) (manifest : Bytes) (s : State) : Answer := s.act fun d =>
  if d.startUp.phase ≠ 2 || d.startUp.fail ≠ 0 then d
  else if good && !d.trust.slotIncomplete && decide (d.trust.svnMin ≤ manifestSvn manifest) then d.bootDrone manifest
  else (d.onStart fun x => { x with fail := 3 }).emit (.peer .copyRequest)

/-- LOADER_PL_RETRY. -/
def execLoaderPlRetry (s : State) : Answer := s.act fun d => d.when (d.startUp.fail == 3) fun d => d.emit (.peer .copyRequest)

/-- FW_RECOVERED: a copy that passes as a slot does is written into it and started. -/
def execFwRecovered (source : Nat) (manifest : Bytes) (s : State) : Answer := s.act fun d =>
  if d.startUp.fail ≠ 3 || !d.manifestOk manifest then d else
  let d := d.onTrust fun t => { t with slotIncomplete := false, slotTries := 0 }
  (d.bootDrone manifest).post Cls.control 0x63 0 [b1 source]

/-- FW_COPY_REQUEST: the recovery copy held for the partner, or this module's running image (R379). -/
def execFwCopyRequest (s : State) : Answer := s.act fun d => d.emit (.peer (.firmware d.trust.partnerManifest.isEmpty))

/-- AK_CERTIFIED (R366). -/
def execAkCertified (s : State) : Answer := s.act fun d =>
  if !d.trust.akPending then d else
    (d.onTrust fun t => { t with akPending := false }).post Cls.security 0x21 0 [b8 (leAt (d.measured 1) 0 8)]

/-! ## Attestation (R369 to R371) -/

/-- The signed bytes 0 to 767 of a quote. -/
def Dev.quoteBody (d : Dev) (nonce : Bytes) : Bytes :=
  let flags := d.field 0x40 0 1 + 2 * flag d.trust.truncated + 4 * flag d.control.degraded + 8 * flag d.trust.slotIncomplete
  leBytes 4 0x44515431 ++ leBytes 2 1 ++ leBytes 1 d.slot ++ leBytes 1 flags ++ leBytes 8 Config.serial ++ padTo 32 nonce ++
    leBytes 8 d.breath ++ leBytes 8 d.control.gen ++ leBytes 8 d.trust.bootCount ++ leBytes 4 (manifestVersion d.trust.running) ++
    leBytes 4 d.trust.log.length ++ zeros 48 ++ ((List.range 10).map d.measured).flatten

/-- A quote: its body and the AK's signature over it. -/
def Dev.quote (d : Dev) (nonce : Bytes) : Bytes :=
  let b := d.quoteBody nonce
  b ++ padTo 49856 (Config.attestationSignature b)

/-- Output of an attestation operation. -/
def Dev.attested (d : Dev) (op : Nat) (nonce : Bytes) : Bytes := match op with
  | 0 => d.quote nonce
  | 1 => Config.certificateChain
  | _ => d.measurementLog

/-- One bank. -/
def Dev.bank (d : Dev) (b : Nat) : Bank := (find d.trust.banks b).getD {}

/-- One bank placed. [log 83: DEDUCED] -/
def Dev.setBank (d : Dev) (b : Nat) (x : Bank) : Dev := d.onTrust fun t => { t with banks := put t.banks b x }

/-- A request ends: STATUS and ATTEST_DONE to the bank's client. [log 83: DEDUCED] -/
def Dev.endAttest (d : Dev) (b op state reason length : Nat) : Dev :=
  let d := d.setBank b { d.bank b with state := state, reason := reason, length := length }
  d.postTo b Cls.security 0x20 b [b1 op, b1 state, b1 reason, b4 length]

/-- GO with an operation: refused at once, or busy until the output is ready; a bank that is busy refuses with BUSY and
goes on (R371). [log 83: DEDUCED] -/
def Dev.attest (d : Dev) (writer bank op : Nat) : Dev :=
  if writer ≠ bank || decide (bank ≥ 4) then d else
  let x := d.bank bank
  if x.state = 1 then (d.setBank bank { x with reason := 1 }).postTo bank Cls.security 0x20 bank [b1 op, b1 3, b1 1, b4 0] else
  if d.control.halted then d.endAttest bank op 3 4 0 else
  if op = 0 && d.trust.akPending then d.endAttest bank op 3 3 0 else
  let base := 0x100 + bank * 0x40
  let nonce := ([0, 8, 16, 24].map fun o => leBytes 8 (d.reg (base + o))).flatten
  d.setBank bank { state := 1, op := op, nonce := nonce, dest := d.reg (base + 0x20), offset := d.reg (base + 0x28) }

/-- ATTEST_QUOTE. [log 83: DEDUCED] -/
def execAttestQuote (writer bank now : Nat) (s : State) : Answer := s.act fun d => (d.clock now).attest writer bank 0

/-- ATTEST_CERTIFICATES. [log 83: DEDUCED] -/
def execAttestCertificates (writer bank now : Nat) (s : State) : Answer := s.act fun d => (d.clock now).attest writer bank 1

/-- ATTEST_LOG. [log 83: DEDUCED] -/
def execAttestLog (writer bank now : Nat) (s : State) : Answer := s.act fun d => (d.clock now).attest writer bank 2

/-- ATTEST_DONE: the output lands in the buffer region DEST names, or REGION refuses and nothing is written; a Drone that has halted
gives none. -/
def execAttestDone (bank : Nat) (s : State) : Answer := s.act fun d =>
  let x := d.bank bank
  if x.state ≠ 1 then d
  else if d.control.halted then d.endAttest bank x.op 3 4 0 else
  let out := d.attested x.op x.nonce
  match d.bufferRegion x.dest with
  | some (i, r) =>
    if x.offset + out.length ≤ r.length then (d.writeRegion i x.offset out).endAttest bank x.op 2 0 out.length
    else d.endAttest bank x.op 3 2 0
  | none => d.endAttest bank x.op 3 2 0

/-! ## The owner lock (R372) -/

/-- CTL_OWNER.LOCK takes a value at its edge: M9 is extended and OWNER_LOCK_CHANGED posted on a change. [log 84: DESIGN CHOICE] -/
def Dev.setLock (d : Dev) (client value : Nat) : Dev :=
  let v := value % 2
  if d.field 0x40 0 1 = v then d else
  let d := d.setReg 0x40 v
  (d.extend 9 4 0 (digest64 (leBytes 4 v ++ leBytes 4 client ++ leBytes 8 d.breath))).post Cls.security 0x22 client [b1 v, b1 client]

/-- OWNER_LOCK: any client may set it; only client 0 may clear it. -/
def execOwnerLock (client now value : Nat) (s : State) : Answer := s.act fun d =>
  let d := d.clock now
  d.when (bitOf value 0 || client == 0) fun d => d.setLock client value

end Sys2Proof.Machine
end

