-- ==== Sys2Proof/Machine/Landing.lean ====
section
/-! DEFINITION. Register writes at an edge: conditions that relate one field to another, and what a written register sets going
(R32, R33, R41, R43, R45, R47, R68, R83, R329, R331, R394, R505). -/

namespace Sys2Proof.Machine

open Sys2Proof RegisterMap

/-! ## Conditions between fields (R505) -/

/-- A condition: whether it holds, and the fields that take part in it, by register offset and low bit. -/
abbrev Condition := Bool × List (Nat × Nat)

/-- FEC modes that R83 lists for a host port's speed. -/
def fecOk (speed fec : Nat) : Bool := match speed with
  | 0 => fec == 0 || fec == 2
  | 1 => fec == 0 || fec == 1 || fec == 3
  | _ => fec == 0 || fec == 3

/-- Conditions of registers that stand alone. -/
def Dev.fixedConditions (d : Dev) : List Condition :=
  let span := d.field brg 0 48
  let n := max 1 (d.field (brg + 8) 0 16)
  let div := d.field (brg + 0x38) 1 16
  let width := d.field (brg + 0x38) 17 15
  let offset := signedOf (d.field (brg + 0x38) 32 32) 32
  let swcField (lo : Nat) : Nat := d.field (swc + 8) lo 20
  [(decide (1000000 * n ≤ span) && decide (span ≤ 10000000000000 * n), [(brg, 0), (brg + 8, 0)]),
   (decide (offset.natAbs * n ≤ span), [(brg + 0x38, 32), (brg, 0), (brg + 8, 0)]),
   (decide (width * 1000 * n ≤ div * span), [(brg + 0x38, 17), (brg + 0x38, 1), (brg, 0), (brg + 8, 0)]),
   (decide (swcField 20 < swcField 0) && decide (swcField 0 < swcField 40), [(swc + 8, 0), (swc + 8, 20), (swc + 8, 40)]),
   (decide (d.field (swc + 0x18) 0 16 < d.field (swc + 0x18) 16 16), [(swc + 0x18, 0), (swc + 0x18, 16)]),
   (decide (d.field (hpc + 8) 0 16 * (2 ^ d.field (hpc + 8) 16 4 - 1) ≤ 51000), [(hpc + 8, 0), (hpc + 8, 16)]),
   (d.field hpc 0 16 != d.field hpc 16 16, [(hpc, 0), (hpc, 16)]),
   (decide (d.field (pwr + 0x30) 16 8 < d.field (pwr + 0x30) 24 8), [(pwr + 0x30, 16), (pwr + 0x30, 24)])]

/-- Conditions of one register of a column: a port's FEC, a counter's selection. -/
def Dev.conditionAt (d : Dev) (addr : Nat) : List Condition :=
  if hpc + 0x1000 ≤ addr && decide (addr < hpc + 0x5000) && addr % 0x40 == 0 then
    [(fecOk (d.field addr 1 2) (d.field addr 3 2), [(addr, 1), (addr, 3)])]
  else if cnt + 0x100 ≤ addr && decide (addr < cnt + 0x700) && addr % 0x10 == 0 then
    [(selectionOk ((addr - (cnt + 0x100)) / 16) (d.reg addr), [(addr, 0), (addr, 8), (addr, 12)])]
  else []

/-- The conditions that writes of some registers may break, with every one of them evaluated on the values in force. -/
def Dev.fieldConditions (d : Dev) (touched : List Nat) : List Condition :=
  d.fixedConditions ++ (touched.eraseDups.map d.conditionAt).flatten

/-- The fields that broken conditions name. -/
def brokenFields (l : List Condition) : List (Nat × Nat) := (l.filter fun c => !c.1).map Prod.snd |>.flatten

/-! ## What a landed register sets going -/

/-- A hand-back of the sets named, owned here, begins at the latest edge (R392, R394). [log 90: DEDUCED] -/
def Dev.beginHandback (d : Dev) (sets : Nat) : Dev :=
  let mine := (List.range 16).filter fun n => bitOf sets n && d.ownsSet n && (find d.peer.handbacks n).isNone
  if mine.isEmpty || !d.standbyReady then d else
  (d.onPeer fun p => { p with handbacks := mine.foldl (fun h n =>
    put h n { edge := d.breath, incoming := false, requestedAt := d.now }) p.handbacks }).copyInstalled

/-- What follows when a register takes a value at an edge: its old word, and the client that wrote it. -/
def Dev.landed (d : Dev) (addr old client : Nat) : Dev :=
  let new := d.reg addr
  if hpc + 0x1000 ≤ addr && decide (addr < hpc + 0x1000 + 260 * 0x40) && addr % 0x40 == 0 then
    d.when (bitOf old 0 && !bitOf new 0) fun d => d.portDown ((addr - (hpc + 0x1000)) / 0x40) 2
  else if pwr + 0x1000 ≤ addr && decide (addr < pwr + 0x1400) && addr % 0x20 == 0 then
    d.applyBayCtl ((addr - (pwr + 0x1000)) / 0x20) new
  else if addr = pwr + 4 then
    d.when (bitOf new 1) fun d => (d.setField addr 1 1 0).clearInletFault
  else if addr = 0x40 then (d.setReg addr old).setLock client new
  else if addr = 0x20C then d.when (new != 0) fun d => (d.setReg addr 0).beginHandback new
  else if addr = brg + 0x20 then d.chooseSource
  else if addr = brg + 0x60 then d.onGrid fun g => { g with ppsSecond := new }
  else if addr = swc + 8 || addr = swc + 0x18 then d.balance
  else if addr = pwr + 0x30 then d.driveFans
  else if addr = dpc then d.when (!bitOf old 62 && bitOf new 62) Dev.prepareHeld
  else if addr = cnt + 0x20 then d.seedTags
  else if cnt + 0x100 ≤ addr && decide (addr < cnt + 0x700) && addr % 0x10 == 0 then
    d.when (old != new) fun d => d.setReg (addr + 8) 0
  else d

/-! ## Step 7 (R43, R45) -/

/-- A direct write placed in force, with what it sets going. -/
def Dev.landOne (d : Dev) (w : LandingWrite) : Dev :=
  let old := d.reg w.addr
  (d.placeLanding w).landed w.addr old w.client

/-- Some direct writes without those that break a condition: each of these keeps the value of step 6 and is reported. [log 19: DEDUCED] -/
def Dev.withoutBreaking (d : Dev) : Nat → List LandingWrite → Dev × List LandingWrite
  | 0, l => (d, l)
  | fuel + 1, l =>
    let after := l.foldl Dev.placeLanding d
    let bad := brokenFields (after.fieldConditions (l.map LandingWrite.addr))
    let (out, kept) := l.partition fun w => bad.contains (w.addr, w.lo)
    if out.isEmpty then (d, l)
    else Dev.withoutBreaking (out.foldl (fun d w => d.unlisted w.addr w.lo w.value) d) fuel kept

/-- Direct writes that have met the cut-off of an edge: those that arrived 2 µs before it or earlier. [log 19: DEDUCED] -/
def Dev.dueWrites (d : Dev) (edge : Nat) : List LandingWrite := d.regs.landing.filter fun w => decide (w.arrival + 2 * us ≤ edge)

/-- Step 7: the direct writes that count for an edge land. [log 19: DEDUCED] -/
def Dev.landWrites (d : Dev) (edge : Nat) : Dev :=
  let due := d.dueWrites edge
  let later := d.regs.landing.filter fun w => decide (w.arrival + 2 * us > edge)
  let (d, kept) := d.withoutBreaking due.length due
  let d := kept.foldl Dev.landOne { d with regs := { d.regs with landing := later } }
  let waiting := later.map LandingWrite.addr
  { d with regs := { d.regs with written := d.regs.written.filter fun w => waiting.contains w.1 } }

end Sys2Proof.Machine
end

