-- ==== Sys2Proof/Machine/Gullot.lean ====
section
/-! DEFINITION. Gullot instruction words: the listed instructions, their decoder and encoder (R187 to R189), and the image
checks that need them (R182). -/

namespace Sys2Proof.Machine

open Sys2Proof

/-- R-type integer operations (R196). -/
inductive AluOp where
  | add | sub | and | or | xor | not | sll | srl | sra | slt | sltu | mul | mulhu | divu | remu | pcnt | ctz | clz
  deriving DecidableEq, Repr

/-- Immediate operations (R192). -/
inductive ImmOp where
  | addi | andi | ori | xori | slti | sltiu | slli | srli | srai
  deriving DecidableEq, Repr

/-- Access widths of loads and stores. -/
inductive Size where
  | b | h | w | d
  deriving DecidableEq, Repr

/-- Branch conditions. -/
inductive Cond where
  | eq | ne | lt | ge | ltu | geu
  deriving DecidableEq, Repr

/-- A listed instruction. Immediate and offset fields are kept as the raw bits of the word. -/
inductive Gullot where
  | alu (op : AluOp) (d a b : Nat)
  | imm (op : ImmOp) (d a v : Nat)
  | liq (d q v : Nat)
  | load (size : Size) (d b v : Nat)
  | store (size : Size) (g b v : Nat)
  | branch (c : Cond) (a b off : Nat)
  | j (off : Nat)
  | jal (d off : Nat)
  | jr (s : Nat)
  | mkca (d n s : Nat)
  | capn (cd cs a b mask : Nat)
  | rds (d s : Nat)
  | engine (op : EngineOp) (t s : Nat)
  | wait (d t : Nat)
  | post (s : Nat)
  | halt
  | note (s : Nat)
  deriving DecidableEq, Repr

/-- FUNCT code of an R-type operation. -/
def AluOp.code : AluOp → Nat
  | .add => 0x000 | .sub => 0x001 | .and => 0x002 | .or => 0x003 | .xor => 0x004 | .not => 0x005 | .sll => 0x006
  | .srl => 0x007 | .sra => 0x008 | .slt => 0x009 | .sltu => 0x00A | .mul => 0x010 | .mulhu => 0x011 | .divu => 0x012
  | .remu => 0x013 | .pcnt => 0x018 | .ctz => 0x019 | .clz => 0x01A

/-- Every R-type operation. -/
def AluOp.all : List AluOp :=
  [.add, .sub, .and, .or, .xor, .not, .sll, .srl, .sra, .slt, .sltu, .mul, .mulhu, .divu, .remu, .pcnt, .ctz, .clz]

/-- The operation takes one source: field gb must be 0. -/
def AluOp.unary : AluOp → Bool
  | .not | .pcnt | .ctz | .clz => true
  | _ => false

/-- Opcode of an immediate operation. -/
def ImmOp.code : ImmOp → Nat
  | .addi => 0x01 | .andi => 0x02 | .ori => 0x03 | .xori => 0x04 | .slti => 0x05 | .sltiu => 0x06 | .slli => 0x07 | .srli => 0x08 | .srai => 0x09

/-- Every immediate operation. -/
def ImmOp.all : List ImmOp := [.addi, .andi, .ori, .xori, .slti, .sltiu, .slli, .srli, .srai]

/-- A shift: IMM16[15:6] must be 0. -/
def ImmOp.shift : ImmOp → Bool
  | .slli | .srli | .srai => true
  | _ => false

/-- Position of a size after the first opcode of its kind. -/
def Size.code : Size → Nat
  | .b => 0 | .h => 1 | .w => 2 | .d => 3

/-- Size of a position. -/
def Size.of : Nat → Size
  | 0 => .b | 1 => .h | 2 => .w | _ => .d

/-- Bytes of an access. -/
def Size.bytes : Size → Nat
  | .b => 1 | .h => 2 | .w => 4 | .d => 8

/-- Position of a condition after opcode 0x14. -/
def Cond.code : Cond → Nat
  | .eq => 0 | .ne => 1 | .lt => 2 | .ge => 3 | .ltu => 4 | .geu => 5

/-- Condition of a position. -/
def Cond.of : Nat → Cond
  | 0 => .eq | 1 => .ne | 2 => .lt | 3 => .ge | 4 => .ltu | _ => .geu

/-- Opcode of an engine instruction, and its D bit. -/
def EngineOp.code : EngineOp → Nat × Nat
  | .zc => (0x28, 0) | .zd => (0x29, 0) | .xtsEncrypt => (0x2A, 0) | .xtsDecrypt => (0x2A, 1) | .app => (0x2B, 0)
  | .rdl => (0x2C, 0) | .xout => (0x2D, 0) | .unmap => (0x2E, 0) | .mapq => (0x30, 0) | .rdc => (0x31, 0)

/-- Every engine instruction. -/
def EngineOp.all : List EngineOp := [.zc, .zd, .xtsEncrypt, .xtsDecrypt, .app, .rdl, .xout, .unmap, .mapq, .rdc]

namespace Gullot

/-- A word of opcode and fields. -/
def word (op f25 f20 low : Nat) : Nat := op * 2 ^ 26 + f25 * 2 ^ 21 + f20 * 2 ^ 16 + low

/-- The word of an instruction (R187). -/
def encode : Gullot → Nat
  | .alu op d a b => word 0 d a (b * 2 ^ 11 + op.code)
  | .imm op d a v => word op.code d a v
  | .liq d q v => word 0x0A d q v
  | .load z d b v => word (0x0C + z.code) d b v
  | .store z g b v => word (0x10 + z.code) g b v
  | .branch c a b off => word (0x14 + c.code) a b off
  | .j off => 0x1A * 2 ^ 26 + off
  | .jal d off => 0x1B * 2 ^ 26 + d * 2 ^ 21 + off
  | .jr s => word 0x1C 0 s 0
  | .mkca d n s => word 0x20 d s n
  | .capn cd cs a b mask => 0x21 * 2 ^ 26 + cd * 2 ^ 23 + cs * 2 ^ 20 + a * 2 ^ 15 + b * 2 ^ 10 + mask * 2 ^ 6
  | .rds d s => word 0x22 d 0 s
  | .engine op t s => word op.code.1 t s op.code.2
  | .wait d t => word 0x2F d t 0
  | .post s => word 0x38 0 s 0
  | .halt => word 0x39 0 0 0
  | .note s => word 0x3A 0 s 0

/-- Every field of an instruction has a value that the encoding admits. -/
def wellFormed : Gullot → Bool
  | .alu op d a b => decide (d < 32) && decide (a < 32) && decide (b < 32) && (!op.unary || b == 0)
  | .imm op d a v => decide (d < 32) && decide (a < 32) && decide (v < if op.shift then 64 else 65536)
  | .liq d q v => decide (d < 32) && decide (q < 4) && decide (v < 65536)
  | .load _ d b v => decide (d < 32) && decide (b < 32) && decide (v < 65536)
  | .store _ g b v => decide (g < 32) && decide (b < 32) && decide (v < 65536)
  | .branch _ a b off => decide (a < 32) && decide (b < 32) && decide (off < 65536)
  | .j off => decide (off < 2 ^ 26)
  | .jal d off => decide (d < 32) && decide (off < 2 ^ 21)
  | .jr s => decide (s < 32)
  | .mkca d n s => decide (d < 32) && decide (n < 8) && decide (s < 32)
  | .capn cd cs a b mask => decide (cd < 8) && decide (cs < 8) && decide (a < 32) && decide (b < 32) && decide (mask < 16)
  | .rds d s => decide (d < 32) && (decide (s < 5) || (decide (8 ≤ s) && decide (s < 16)))
  | .engine _ t s => decide (t < 32) && decide (1 ≤ s) && decide (s ≤ 28)
  | .wait d t => decide (d < 32) && decide (t < 32)
  | .post s => decide (s ≤ 28)
  | .halt => true
  | .note s => decide (1 ≤ s) && decide (s ≤ 30)

/-- An instruction kept where a condition holds. -/
def keep (b : Bool) (i : Gullot) : Option Gullot := if b then some i else none

/-- The listed instruction that a 32-bit word spells; `none` = unlisted (R187, R189). -/
def decode (w : Nat) : Option Gullot :=
  let op := w / 2 ^ 26 % 64
  let f25 := w / 2 ^ 21 % 32
  let f20 := w / 2 ^ 16 % 32
  let low := w % 2 ^ 16
  if op = 0 then
    let b := low / 2 ^ 11
    (AluOp.all.find? fun o => o.code == low % 2 ^ 11).bind fun o => keep (!o.unary || b == 0) (.alu o f25 f20 b)
  else if op < 0x0A then
    (ImmOp.all.find? fun o => o.code == op).bind fun o => keep (!o.shift || decide (low < 64)) (.imm o f25 f20 low)
  else if op = 0x0A then keep (decide (f20 < 4)) (.liq f25 f20 low)
  else if op = 0x0B then none
  else if op < 0x10 then some (.load (Size.of (op - 0x0C)) f25 f20 low)
  else if op < 0x14 then some (.store (Size.of (op - 0x10)) f25 f20 low)
  else if op < 0x1A then some (.branch (Cond.of (op - 0x14)) f25 f20 low)
  else if op = 0x1A then some (.j (w % 2 ^ 26))
  else if op = 0x1B then some (.jal f25 (w % 2 ^ 21))
  else if op = 0x1C then keep (low == 0) (.jr f20)
  else if op = 0x20 then keep (decide (low < 8)) (.mkca f25 low f20)
  else if op = 0x21 then
    keep (w % 64 == 0) (.capn (w / 2 ^ 23 % 8) (w / 2 ^ 20 % 8) (w / 2 ^ 15 % 32) (w / 2 ^ 10 % 32) (w / 2 ^ 6 % 16))
  else if op = 0x22 then keep (f20 == 0 && (decide (low < 5) || (decide (8 ≤ low) && decide (low < 16)))) (.rds f25 low)
  else if op = 0x2F then keep (low == 0) (.wait f25 f20)
  else if op = 0x38 then keep (f25 == 0 && low == 0 && decide (f20 ≤ 28)) (.post f20)
  else if op = 0x39 then keep (f25 == 0 && low == 0 && f20 == 0) .halt
  else if op = 0x3A then keep (f25 == 0 && low == 0 && decide (1 ≤ f20) && decide (f20 ≤ 30)) (.note f20)
  else (EngineOp.all.find? fun o => o.code == (op, low)).bind fun o => keep (decide (1 ≤ f20) && decide (f20 ≤ 28)) (.engine o f25 f20)

/-- Activation kinds in which an instruction may execute, as a bitmap (R189). -/
def kinds : Gullot → Nat
  | .engine .rdl _ _ | .engine .xout _ _ | .engine .unmap _ _ | .engine .mapq _ _ | .engine .rdc _ _ => 1
  | .post _ => 3
  | _ => 7

/-- A library-only instruction (R180). -/
def libraryOnly : Gullot → Bool
  | .engine .mapq _ _ | .engine .rdc _ _ => true
  | _ => false

/-- Target of a branch or jump at a word index, where it has one (R198). -/
def target (i : Gullot) (pc : Nat) : Option Int := match i with
  | .branch _ _ _ off => some ((pc : Int) + signedOf off 16)
  | .j off => some ((pc : Int) + signedOf off 26)
  | .jal _ off => some ((pc : Int) + signedOf off 21)
  | _ => none

/-- One word of an image passes the checks of R182. -/
def wordOk (kindsMask codeWords pc w : Nat) : Bool :=
  match decode w with
  | none => false
  | some i =>
    !i.libraryOnly && Nat.land i.kinds kindsMask != 0 &&
      match i.target pc with
      | some t => decide (0 ≤ t) && decide (t < codeWords)
      | none => true

end Gullot

end Sys2Proof.Machine
end

