-- ==== Sys2Proof/Machine/Forwarding.lean ====
section
/-! DEFINITION. Commands on their way to the partner: the data that goes with a WRITE, and the order in which the commands of one
queue leave (R135, R155). -/

namespace Sys2Proof.Machine

open Sys2Proof

/-- Check elements of a HOST_LIST: the RESULT of the first that fails, or of a wrong sum. [log 121: DEDUCED] -/
def listFault (blocks : Nat) (list : Bytes) (count : Nat) : Option Nat :=
  let element (i : Nat) : Bytes := slice list (16 * i) 16
  let ok (e : Bytes) : Bool :=
    leAt e 0 8 % 4 == 0 && leAt e 8 4 % 4 == 0 && decide (4 ≤ leAt e 8 4) && decide (leAt e 8 4 ≤ 4194304) && zeroRange e 12 15
  match (List.range count).find? fun i => !ok (element i) with
  | some i => some (24 + 16 * i)
  | none =>
    if (List.range count).foldl (fun n i => n + leAt (element i) 8 4) 0 = blocks * 4096 then none else some 22

/-- The elements of a list. -/
def listRanges (list : Bytes) (count : Nat) : List (Nat × Nat) :=
  (List.range count).map fun i => (leAt list (16 * i) 8, leAt list (16 * i + 8) 4)

/-- Where the check fields of a command lie, with their length. -/
def checksOf (entry : Bytes) : Option (Nat × Nat) :=
  if bitOf (byteAt entry 20) 1 then some (leAt entry 36 8, leAt entry 16 4 * 16) else none

/-- Reads of host memory for a command's data or list are on their way. -/
def Dev.readingFor (d : Dev) (seq : Nat) : Bool :=
  (d.endpoint.reads.map Prod.snd ++ d.endpoint.waitingReads.map Prod.fst).any fun p => match p with
    | .data q _ _ => q == seq
    | .list q => q == seq
    | _ => false

/-- The forwarded commands of a queue leave in ADMIT_SEQ order, up to the first whose data is still being read. [log 31: DEDUCED] -/
def Dev.sendForwards (d : Dev) (sq : Nat) : Dev :=
  (d.front.flight.foldl (fun (p : Dev × Bool) f =>
    if f.2.sq != sq || f.2.stage != Stage.leaving || p.2 then p
    else if p.1.readingFor f.1 then (p.1, true)
    else ((p.1.emit (.peer (.forwarded f.1 f.2.entry f.2.payload))).onFront fun x =>
      { x with flight := alter x.flight f.1 fun y => { y with stage := .forwarded } }, false)) (d, false)).1

/-- What goes with a forwarded command: the data and check fields of a BUFFER WRITE; for PEER, the SA that the owner moves the data
on; else what the command holds. [log 31: DEDUCED] -/
def Dev.forwardPayload (d : Dev) (f : InFlight) : Bytes :=
  let e := f.entry
  let n := leAt e 16 4
  if opcodeOf e > 2 then f.payload else
  match opcodeOf e, byteAt e 21 % 8 with
  | _, 2 => leBytes 2 f.sa
  | 2, 3 => match d.bufferRegion (leAt e 32 4) with
    | some (_, r) => readBytes r.mem (leAt e 24 8) (n * 4096) ++ match checksOf e with
      | some (c, k) => readBytes r.mem c k
      | none => []
    | none => []
  | _, _ => []

/-- Host reads of a forwarded WRITE's data and check fields, by the ranges its data lies in. [log 41: DEDUCED] -/
def Dev.gather (d : Dev) (seq : Nat) (e : Bytes) (ranges : List (Nat × Nat)) : Dev :=
  let d := (ranges.foldl (fun (p : Dev × Nat) r => (p.1.hostRead (.data seq p.2 false) r.1 r.2, p.2 + r.2)) (d, 0)).1
  match checksOf e with
  | some (a, n) => d.hostRead (.data seq 0 true) a n
  | none => d

/-- A command forwarded: it leaves once the data that goes with it has been read. [log 31: DEDUCED] -/
def Dev.forward (d : Dev) (seq : Nat) : Dev :=
  match find d.front.flight seq with
  | none => d
  | some f =>
    let e := f.entry
    let kind := byteAt e 21 % 8
    let host := opcodeOf e == 2 && leAt e 16 4 != 0 && decide (kind ≤ 1)
    let d := d.onFront fun x => { x with flight := put x.flight seq { f with stage := .leaving, payload := d.forwardPayload f } }
    let d :=
      if !host then d
      else if !d.busMaster then d.complete seq Status.transferFailed 2
      else if kind = 0 then d.gather seq e [(leAt e 24 8, leAt e 16 4 * 4096)]
      else d.hostRead (.list seq) (leAt e 24 8) (leAt e 22 2 * 16)
    d.sendForwards f.sq

/-- A part of a forwarded WRITE's data has been read. -/
def Dev.gathered (d : Dev) (seq offset : Nat) (checks : Bool) (b : Bytes) : Dev :=
  match find d.front.flight seq with
  | some f =>
    if f.stage ≠ .leaving then d else
    let o := if checks then leAt f.entry 16 4 * 4096 + offset else offset
    (d.onFront fun x => { x with flight := put x.flight seq { f with payload := patch f.payload o b } }).sendForwards f.sq
  | none => d

/-- The list of a forwarded WRITE has been read: a failing element completes it, and so does a host that can be asked no more (R456).
[log 41: DEDUCED] -/
def Dev.gatherList (d : Dev) (seq : Nat) (b : Bytes) : Dev :=
  match find d.front.flight seq with
  | some f =>
    if f.stage ≠ .leaving then d else
    let count := leAt f.entry 22 2
    match listFault (leAt f.entry 16 4) b count with
    | some result => (d.complete seq Status.invalidField result).sendForwards f.sq
    | none =>
      if !d.busMaster then (d.complete seq Status.transferFailed 2).sendForwards f.sq
      else (d.gather seq f.entry (listRanges b count)).sendForwards f.sq
  | none => d

end Sys2Proof.Machine
end

