-- ==== Sys2Proof/Machine/Handing.lean ====
section
/-! DEFINITION. Sets that change their owner: what a set's image becomes in the module that takes it, and the last step of the
module that gives it (R29, R106, R268, R388, R390, R392, R394). -/

namespace Sys2Proof.Machine

open Sys2Proof RegisterMap

/-! ## A set's image placed among this module's own records -/

/-- Record keys moved up by the number of keys in use here. -/
def Change.shift (c : Change) (k : Nat) : Change := match c with
  | .append r lba n => .append (r + k) lba n
  | .unmap lba n => .unmap lba n

/-- Directory and extents of a granule under moved keys and journal positions. -/
def Granule.shift (g : Granule) (k j : Nat) : Granule :=
  { directory := g.directory + k, jseq := g.jseq + j, extents := g.extents.map fun e => { e with record := e.record + k } }

/-- A namespace under moved keys and journal positions. -/
def Namespace.shift (n : Namespace) (k j : Nat) : Namespace :=
  { n with granules := mapValues n.granules fun _ g => g.shift k j, roots := mapValues n.roots fun _ r => r + k }

/-- The set's persistent state taken over from an image: this module is its owner. -/
def Dev.takeSet (d : Dev) (n : Nat) (x : SetImage) : Dev :=
  let k := nextKey d.stripes.records
  let j := d.stripes.nextJseq
  let records := x.records.map fun r => (r.1 + k, { r.2 with jseq := r.2.jseq + j, movingTo := r.2.movingTo.map (· + k) })
  let seals := x.seals.map fun s => { s with changes := s.changes.map fun c => c.shift k }
  let journal := x.journal.map fun r => { r with jseq := r.jseq + j }
  let set := { x.set with owner := d.slot, ledgerJseq := x.set.ledgerJseq + j }
  d.onStripes fun y => { y with
    sets := put y.sets n set
    namespaces := x.spaces.foldl (fun t s => put t s.1 (s.2.shift k j)) y.namespaces
    records := y.records ++ records
    seals := (y.seals.filter fun s => s.set != n) ++ seals
    journal := (y.journal.filter fun r => r.set != n) ++ journal
    nextJseq := j + x.nextJseq }

/-! ## Windows of a set that this module takes (R388, R390) -/

/-- The packets that the partner copied into this module's mirror of a window's slots. -/
def Window.withCopies (w : Window) (l : List SlotCopy) : Window :=
  l.foldl (fun w c => (w.openSlot c.breath).onSlot c.breath fun t => { t with
    data := writeBytes t.data c.offset c.data, checks := writeBytes t.checks (c.offset / 4096 * 16) c.checks
    covered := Nat.lor t.covered (blockRange (c.offset / 4096) (c.data.length / 4096))
    carried := t.carried ++ [blockRange (c.offset / 4096) (c.data.length / 4096)] }) { w with ring := [], breaths := [] }

/-- Breaths of a window that have closed by a breath and are not known to be complete. -/
def Window.unsealed (w : Window) (now : Nat) : List Nat :=
  let closed := w.breaths.filterMap fun b => if b.2.seq.isSome then some b.1 else none
  let known := closed.foldl max (max w.lastBreath (w.firstBreath - 1))
  let stop := if w.mode = .draining then min now w.drainFrom else now
  if w.mode = .armed ∨ w.mode = .draining then closed ++ (List.range (stop - (known + 1))).map fun i => known + 1 + i else []

/-- A window adopted, with its slots as the copies give them, and its unsealed breaths closed under this module's generation. [log 88: DEDUCED] -/
def Dev.adoptWindow (d : Dev) (n : Nat) (w : Window) (breaths : List Nat) : Dev :=
  let x := w.withCopies (d.peer.slots.filter fun c => c.window == n)
  let d := d.onMemory fun m => { m with windows := put m.windows n x }
  breaths.foldl (fun d b =>
    let y : WindowBreath := {
      seq := some d.front.admitNext, gen := d.control.gen, bound := d.boundTo (windowBinding n) 0x10
      covered := if x.replPartner then x.coverage b else 0, recovered := true }
    (d.onWindow n fun x => { x with breaths := put x.breaths b y }).onFront fun f => { f with admitNext := f.admitNext + 1 }) d

/-- The windows of an image whose numbers and region indices this module does not use, with their regions, reed contexts, completion
queues and bindings. A PEER CQ on an SA of `clash`, which was not adopted, is handled as full (R388). -/
def Dev.adoptWindows (d : Dev) (x : SetImage) (clash : List Nat) (unsealed : Bool) : Dev :=
  let i := d.peer.installed
  x.windows.foldl (fun d w =>
    if (find d.memory.windows w.1).isSome || (find d.memory.regions w.2.region).any fun r => decide (r.life = .held) then d else
    let d := match find i.regions w.2.region with
      | some r => d.onMemory fun m => { m with regions := put m.regions w.2.region { r with mem := [] } }
      | none => d
    let reeds := i.reeds.filter fun r => r.2.kind == ReedKind.window && r.2.target == w.1
    let d := d.onTransport fun t => { t with reeds := reeds.foldl (fun l r => put l r.1 r.2) t.reeds }
    let d := match find d.front.cqs w.2.cq, find i.cqs w.2.cq with
      | none, some q =>
        let q : Cq := { q with chain := [], outstanding := [], record := [], stalled := false, peerFull := decide (q.place = Placement.peer) && clash.contains q.sa }
        d.onFront fun f => { f with cqs := put f.cqs w.2.cq q }
      | _, _ => d
    let d := match find i.bindings (windowBinding w.1) with
      | some b => d.onChanters fun c => { c with bindings := put c.bindings (windowBinding w.1) b }
      | none => d
    d.adoptWindow w.1 w.2 (if unsealed then w.2.unsealed d.breath else [])) d

/-- Programs, keys and namespace bindings that a taken set needs and this module does not hold. [log 88: DEDUCED] -/
def Dev.adoptCode (d : Dev) (x : SetImage) : Dev :=
  let i := d.peer.installed
  let add {α : Type} (mine theirs : Table α) : Table α := theirs.foldl (fun t p => if (find t p.1).isSome then t else put t p.1 p.2) mine
  let d := d.onChanters fun c => { c with
    programs := add c.programs i.programs
    bindings := add c.bindings (i.bindings.filter fun b => x.spaces.any fun s => [1, 2, 3].any fun op => commandBinding s.1 op == b.1) }
  d.onCipher fun c => { c with keys := add c.keys i.keys }

/-! ## Transition -/

/-- A set whose commands and commits wait: it is being taken over, or handed to this module and not yet recovered. -/
def Dev.inTransition (d : Dev) (set : Nat) : Bool :=
  d.peer.taking.contains set || ((find d.peer.handbacks set).map Handback.incoming).getD false

/-- The set of a namespace, here or in the mirror. -/
def Dev.setNumber (d : Dev) (nsid : Nat) : Option Nat :=
  ((find d.stripes.namespaces nsid).map Namespace.set).orElse fun _ => (d.partnerNs nsid).map Namespace.set

/-- Work on a namespace may start: its set is not in transition. -/
def Dev.settled (d : Dev) (nsid : Nat) : Bool := match d.setNumber nsid with
  | some n => !d.inTransition n
  | none => true

/-! ## The giving module (R394 step 3) -/

/-- Work of a set still runs: a closed breath, or a command past its start. -/
def Dev.setWorking (d : Dev) (set : Nat) : Bool :=
  let ns := d.namespacesOn set
  (d.memory.windows.any fun w => ns.contains w.2.nsid && w.2.breaths.any fun b => b.2.seq.isSome) ||
  d.front.flight.any fun f => ns.contains (nsidOf f.2.entry) && (decide (f.2.stage = .dispatched) || decide (f.2.stage = .passed))

/-- A set released to the partner: this module holds its image only. -/
def Dev.release (d : Dev) (set : Nat) : Dev :=
  let ns := d.namespacesOn set
  let windows := d.windowsOn set
  let regions := d.memory.windows.filterMap fun w => if windows.contains w.1 then some w.2.region else none
  let image := (d.setImage set).map fun x => { x with set := { x.set with owner := 1 - d.slot } }
  let d := d.onMemory fun m => { m with
    windows := m.windows.filter fun w => !windows.contains w.1, regions := m.regions.filter fun r => !regions.contains r.1 }
  let d := d.onStripes fun x => { x with
    sets := drop x.sets set, namespaces := x.namespaces.filter fun n => !ns.contains n.1
    records := x.records.filter fun r => r.2.set != set, seals := x.seals.filter fun s => s.set != set
    journal := x.journal.filter fun r => r.set != set }
  let d := d.onPeer fun p => { p with
    handbacks := drop p.handbacks set, sets := match image with
      | some x => put p.sets set x
      | none => p.sets }
  d.onPeer fun p => { p with ownerOut := p.aliveOut && d.owned != 0 }

/-- A set's open stripes closed with PAD, its commands passed on, HANDOVER sent and the set released, once its last commit has been
sealed and mirrored. [log 90: DEDUCED] -/
def Dev.handOver (d : Dev) (set : Nat) : Dev :=
  match find d.peer.handbacks set with
  | none => d
  | some h =>
    if h.incoming || decide (d.breath < h.edge + 1) || d.setWorking set then d else
    let ns := d.namespacesOn set
    let d := ((d.closeStripe set true).closeStripe set false).mirrorSet set
    let d := d.front.flight.foldl (fun d f =>
      if ns.contains (nsidOf f.2.entry) && decide (f.2.stage = .waiting) then match f.2.origin with
        | none => d.forward f.1
        | some _ => d.onFront fun x => { x with flight := drop x.flight f.1 }
      else d) d
    (d.emit (.peer (.handover set d.stripes.nextJseq))).release set

/-- What ends by itself once some work has ended: flushes, and hand-backs whose last commit has sealed. -/
def Dev.settle (d : Dev) : Dev :=
  let d := d.settleFlushes
  d.peer.handbacks.foldl (fun d h => d.handOver h.1) d

end Sys2Proof.Machine
end

