-- ==== Sys2Proof/Machine/Activations.lean ====
section
/-! DEFINITION. The chanters: activations, their memory and capability windows, the carrying out of one instruction, faults and
fences, seals and the end of an activation (R160 to R178, R190, R191, R205, R212, R213). -/

namespace Sys2Proof.Machine

open Sys2Proof RegisterMap

/-! ## Activations -/

/-- Kind of an activation (R161). -/
def Work.kind : Work → Nat
  | .command _ => 0
  | .commit _ _ => 1
  | .early _ _ _ => 2

/-- One activation changed. [log 74: DESIGN CHOICE] -/
def Dev.onThread (d : Dev) (t : Nat) (f : Activation → Activation) : Dev :=
  d.onChanters fun c => { c with threads := alter c.threads t f }

/-- A general register; g0 reads as 0 (R165). -/
def Activation.reg (a : Activation) (n : Nat) : Nat := if n = 0 then 0 else ((find a.regs n).getD 0).toNat

/-- A general register written; writes to g0 are discarded. A register that holds 0 is not listed. -/
def Activation.setReg (a : Activation) (n v : Nat) : Activation :=
  if n = 0 then a
  else if v % 2 ^ 64 = 0 then { a with regs := drop a.regs n }
  else { a with regs := put a.regs n (BitVec.ofNat 64 v) }

/-- The 64-byte entry in the frame of a command activation. -/
def Activation.entry (a : Activation) : Bytes := slice a.frame 0x40 64

/-- First LBA and blocks of the activation's own range (R206). -/
def Activation.range (a : Activation) : Nat × Nat :=
  if a.work.kind = 0 then (leAt a.entry 8 8, leAt a.entry 16 4) else (leAt a.frame 0x48 8, leAt a.frame 0x44 4)

/-- A block range lies inside the activation's own range. -/
def Activation.covers (a : Activation) (lba blocks : Nat) : Bool :=
  decide (a.range.1 ≤ lba) && decide (lba + blocks ≤ a.range.1 + a.range.2)

/-- The namespace of an activation; a deleted one whose map is being released still serves activations that run. -/
def Dev.nsOf (d : Dev) (a : Activation) : Option Namespace :=
  (find d.stripes.namespaces a.nsid).orElse fun _ => find d.stripes.releasing a.nsid

/-! ## Areas (R169, R191) -/

/-- Window and breath of a window activation. -/
def Work.slot : Work → Option (Nat × Nat)
  | .command _ => none
  | .commit w b => some (w, b)
  | .early w b _ => some (w, b)

/-- The slot a window activation works on. -/
def Dev.slotOf (d : Dev) (a : Activation) : Option Slot :=
  a.work.slot.bind fun p => (find d.memory.windows p.1).bind fun w => w.slotFor p.2

/-- Bytes of an area of an activation. -/
def Dev.areaBytes (d : Dev) (a : Activation) (x : Area) (start n : Nat) : Bytes :=
  let sparse (m : List Host.Cell) : Bytes := readBytes m start n
  match x with
  | .frame => slice a.frame start n
  | .scratch => sparse a.scratch
  | .staging => sparse a.staging
  | .coverage => slice (leBytes (2 * a.cunits) a.covered) start n
  | .data => sparse (if a.work.kind = 0 then a.data else ((d.slotOf a).map Slot.data).getD [])
  | .checks => sparse (if a.work.kind = 0 then a.checks else ((d.slotOf a).map Slot.checks).getD [])

/-- Two ranges share a byte of one window. -/
def Span.meets (a b : Span) : Bool :=
  decide (a.area = b.area) && decide (a.start < b.start + b.length) && decide (b.start < a.start + a.length)

/-- Bytes written into an area; marks on a byte of them are cleared (R205). -/
def Activation.write (a : Activation) (x : Area) (start : Nat) (b : Bytes) : Activation :=
  let s : Span := { area := x, start := start, length := b.length }
  let a := { a with marks := a.marks.filter fun m => !m.span.meets s }
  match x with
  | .scratch => { a with scratch := writeBytes a.scratch start b }
  | .staging => { a with staging := writeBytes a.staging start b }
  | .data => { a with data := writeBytes a.data start b }
  | .checks => { a with checks := writeBytes a.checks start b }
  | _ => a

/-! ## Capability addresses (R167, R171, R193) -/

namespace FaultCode
/-- CAP_BOUNDS. [log 64: DEDUCED] -/
def bounds : Nat := 1
/-- CAP_RIGHTS. [log 64: DEDUCED] -/
def rights : Nat := 2
/-- CA_MALFORMED. -/
def malformed : Nat := 3
/-- MISALIGNED. [log 64: DEDUCED] -/
def misaligned : Nat := 4
/-- ILLEGAL. -/
def illegal : Nat := 5
/-- TICKET. -/
def ticket : Nat := 6
/-- POST_TWICE. -/
def postTwice : Nat := 7
/-- NO_POST. -/
def noPost : Nat := 8
/-- BUDGET. -/
def budget : Nat := 9
/-- MEMORY. -/
def memory : Nat := 10
end FaultCode

/-- An access of `n` bytes at an offset of a window, under a right: the bytes it covers, or the fault (R171). [log 64: DEDUCED] -/
def Activation.access (a : Activation) (k off n : Nat) (right : Cap → Bool) : Except Nat Span :=
  match find a.caps k with
  | none => .error FaultCode.bounds
  | some c =>
    if off + n > c.length then .error FaultCode.bounds
    else if !right c then .error FaultCode.rights
    else .ok { area := c.area, start := c.base + off, length := n }

/-- The access of a load or store: base register value, raw displacement, width and right (R193). [log 64: DEDUCED] -/
def Activation.effective (a : Activation) (base imm n : Nat) (right : Cap → Bool) : Except Nat Span :=
  if bitsOf base 51 13 ≠ 0 then .error FaultCode.malformed
  else
    let off := signedOf base 48 + signedOf imm 16
    if off < 0 then .error FaultCode.bounds
    else match a.access (bitsOf base 48 3) off.toNat n right with
      | .ok s => if s.start % n ≠ 0 then .error FaultCode.misaligned else .ok s
      | .error e => .error e

/-- The bytes an engine operand covers (R171, R194). -/
def Activation.operand (a : Activation) (ca n : Nat) (right : Cap → Bool) : Except Nat Span :=
  if bitsOf ca 51 13 ≠ 0 then .error FaultCode.malformed else a.access (bitsOf ca 48 3) (bitsOf ca 0 48) n right

/-! ## Faults and fences (R175 to R178) -/

/-- An activation's thread given up: its registers, scratch, staging, tickets and unsealed changes are gone. -/
def Dev.dropThread (d : Dev) (t : Nat) : Dev :=
  let d := d.tagAbandon t
  let d := d.onCipher fun c => { c with xtsContexts := c.xtsContexts.filter fun x => x.thread != t }
  d.onChanters fun c => { c with threads := drop c.threads t }

/-- An early-cunit activation has ended. -/
def Dev.endEarly (d : Dev) (w b i committed bad status : Nat) : Dev :=
  d.onWindow w fun x => if (find x.breaths b).isNone then x else x.onBreath b fun y => { y with
    earlyEnded := Nat.lor y.earlyEnded (2 ^ i), earlyCommitted := y.earlyCommitted + committed, earlyBad := y.earlyBad + bad
    earlyStatus := if y.earlyStatus = 0 then status else y.earlyStatus }

/-- Unit of a chanter event: NSID for kind 0, window number for kinds 1 and 2 (R186). -/
def Activation.unit (a : Activation) : Nat := match a.work.slot with
  | some p => p.1
  | none => a.nsid

/-- An activation ends by a fault of codes 1 to 9: its unit is fenced (R177). -/
def Dev.faultThread (d : Dev) (t code : Nat) : Dev :=
  match find d.chanters.threads t with
  | none => d
  | some a =>
    let d := d.count (cha + 0x18)
    let d := d.post Cls.control 0x20 a.unit [b4 a.progId, b4 a.version, b1 code, b4 a.pc, b1 a.work.kind, b4 (t / 8 + 64 * (t % 8))]
    let d := d.dropThread t
    Dev.settle <| match a.work with
    | .command seq => (d.onNs a.nsid fun n => n.fence .program).complete seq Status.unitFenced a.progId
    | .commit w b =>
      let d := d.fenceWindow w a.progId code Status.unitFenced
      if a.posted then d else d.endBreath w b Status.unitFenced
    | .early w b i => (d.endEarly w b i 0 0 Status.unitFenced).fenceWindow w a.progId code Status.unitFenced

/-- An activation ends because its chanter is fenced: no unit is fenced (R178). -/
def Dev.endOnChanter (d : Dev) (t : Nat) : Dev :=
  match find d.chanters.threads t with
  | none => d
  | some a =>
    let d := d.dropThread t
    Dev.settle <| match a.work with
    | .command seq => d.complete seq Status.unitFenced a.progId
    | .commit w b => if a.posted then d else d.endBreath w b Status.unitFenced
    | .early w b i => d.endEarly w b i 0 0 Status.unitFenced

/-- A chanter fenced with CHANTER_FENCED; store 0 is the instruction store, 1 the data store. -/
def Dev.fenceChanter (d : Dev) (c store : Nat) : Dev :=
  if d.chanters.fenced.contains c then d else
  let here := d.chanters.threads.filterMap fun t => if t.1 / 8 = c then some t.1 else none
  let d := d.onChanters fun x => { x with fenced := c :: x.fenced }
  (here.foldl Dev.endOnChanter d).post Cls.control 0x21 c [b1 store, b4 here.length]

/-- A command activation ends with a status that the module itself gives: ABORTED for a caught one, TRANSFER_FAILED for a
failed fetch, INVALID_FIELD for a list element. -/
def Dev.endCommand (d : Dev) (seq status result : Nat) : Dev :=
  let d := d.chanters.threads.foldl (fun d t => match t.2.work with
    | .command q => if q = seq then d.dropThread t.1 else d
    | _ => d) d
  (d.complete seq status result).settle

/-! ## One instruction (R160, R189, R190) -/

/-- What an instruction's effect comes to. [log 74: DESIGN CHOICE] -/
inductive Ran where
  /-- the thread is not ready; nothing has happened -/
  | stall
  /-- not ready, with the module changed on the way (a seal on its way to its durability point) -/
  | wait (d : Dev)
  | fault (code : Nat)
  /-- it retires and goes on at a word index -/
  | done (d : Dev) (a : Activation) (next : Nat)
  /-- it retires and ends the activation -/
  | ended (d : Dev)

/-- The instruction is allowed in the activation's kind; a `post` in kind 2 is let through, to raise POST_TWICE (R189). -/
def Gullot.allowedIn (i : Gullot) (kind : Nat) : Bool := bitOf i.kinds kind || match i with
  | .post _ => true
  | _ => false

/-- One instruction of a thread carried out. No instruction runs on a fenced chanter, before a command's data has been
fetched, or where there is no activation. The instruction that would bring sinsn to the budget raises BUDGET. [log 4: DESIGN CHOICE] -/
def Dev.execute (d : Dev) (t : Nat) (i : Gullot) (f : Activation → Ran) : Dev :=
  match find d.chanters.threads t with
  | none => d
  | some a =>
    if a.awaiting ≠ 0 then d else
    let ran := if a.pc ≥ a.codeWords || !i.allowedIn a.work.kind then Ran.fault FaultCode.illegal else f a
    let spent := decide (a.sinsn + 1 ≥ a.limit * 65536)
    let tag (d : Dev) : Dev := d.tagIssue t a.progId a.work.kind
    match ran with
    | .stall => d
    | .fault c => (tag d).faultThread t c
    | .wait e => if spent then (tag d).faultThread t FaultCode.budget else e
    | .done e b next =>
      if spent then (tag d).faultThread t FaultCode.budget
      else tag (e.onChanters fun c => { c with threads := put c.threads t { b with pc := next, sinsn := b.sinsn + 1 } })
    | .ended e => if spent then (tag d).faultThread t FaultCode.budget else tag e

/-- An instruction that writes one register and goes on. -/
def Dev.writes (d : Dev) (t : Nat) (i : Gullot) (rd : Nat) (value : Activation → Nat) : Dev :=
  d.execute t i fun a => .done d (a.setReg rd (value a)) (a.pc + 1)

/-! ## Seals (R142, R174, R276) -/

/-- Changes of an activation as the seal journals them. -/
def Activation.changes (a : Activation) : List Change := a.pendings.map fun p => match p with
  | .append k l n => .append k l n
  | .unmap l n => .unmap l n

/-- ADMIT_SEQ under which an activation runs: that of its command or commit. -/
def Activation.seq (a : Activation) : Nat := leAt a.frame 0x08 8

/-- The seal waits for media: FUA on a WRITE, or a partner that is not standby-ready (R142). -/
def Dev.sealForced (d : Dev) (a : Activation) : Bool := bitOf (byteAt a.frame 0x32) 1 || !d.standbyReady

/-- A seal with some sequence number has not been map-committed. -/
def Dev.sealOpen (d : Dev) (seq : Nat) : Bool := d.stripes.seals.any fun s => s.seq == seq

/-- Blocks that a change appends. -/
def Change.appended : Change → Nat
  | .append _ _ n => n
  | .unmap _ _ => 0

/-- The activation's changes sealed, once. -/
def Dev.sealChanges (d : Dev) (t : Nat) (a : Activation) : Dev :=
  let d := d.seal a.seq a.nsid a.changes (d.sealForced a)
  let d := match a.work with
    | .commit w b => d.onWindow w fun x => if (find x.breaths b).isNone then x else x.onBreath b fun y => { y with
        sealed := some (a.changes.foldl (fun n (c : Change) => n + c.appended) 0) }
    | _ => d
  d.onThread t fun a => { a with sealed := true, pendings := [] }

/-- The seal of `post`, and of `halt` in kind 2: a stall while tickets are outstanding, then the seal, then a wait until it has
reached its durability point; `then'` follows. -/
def Dev.withSeal (d : Dev) (t : Nat) (a : Activation) (then' : Dev → Ran) : Ran :=
  if a.tickets.any fun k => k.2.result.isNone then .stall
  else if a.sealed then
    if d.sealForced a && d.sealOpen a.seq then .stall else then' d
  else if a.pendings.isEmpty then then' d
  else
    let e := d.sealChanges t a
    if d.sealForced a then .wait e else then' e

end Sys2Proof.Machine
end

