-- ==== Sys2Proof/Machine/Integer.lean ====
section
/-! DEFINITION. The Gullot integer instructions (R192, R196, R197). -/

namespace Sys2Proof.Machine

open Sys2Proof

/-- Count of trailing zero bits of a 64-bit value; 64 for 0. -/
def trailingZeros (v : Nat) : Nat := ((List.range 64).find? fun i => bitOf v i).getD 64

/-- Count of leading zero bits of a 64-bit value; 64 for 0. -/
def leadingZeros (v : Nat) : Nat := ((List.range 64).find? fun i => bitOf v (63 - i)).getD 64

/-- Number of 1 bits of a 64-bit value. -/
def population (v : Nat) : Nat := (List.range 64).foldl (fun n i => n + flag (bitOf v i)) 0

/-- Arithmetic right shift of a 64-bit value. -/
def shiftSigned (v n : Nat) : Nat := unsignedOf (signedOf v 64 / (2 ^ n : Nat)) 64

/-- Result of an R-type operation on two 64-bit values (R196); the unary operations take the first. -/
def AluOp.eval (op : AluOp) (a b : Nat) : Nat := match op with
  | .add => (a + b) % 2 ^ 64
  | .sub => (a + 2 ^ 64 - b) % 2 ^ 64
  | .and => Nat.land a b
  | .or => Nat.lor a b
  | .xor => Nat.xor a b
  | .not => 2 ^ 64 - 1 - a
  | .sll => a * 2 ^ (b % 64) % 2 ^ 64
  | .srl => a / 2 ^ (b % 64)
  | .sra => shiftSigned a (b % 64)
  | .slt => flag (decide (signedOf a 64 < signedOf b 64))
  | .sltu => flag (decide (a < b))
  | .mul => a * b % 2 ^ 64
  | .mulhu => a * b / 2 ^ 64
  | .divu => if b = 0 then 2 ^ 64 - 1 else a / b
  | .remu => if b = 0 then a else a % b
  | .pcnt => population a
  | .ctz => trailingZeros a
  | .clz => leadingZeros a

/-- A 16-bit immediate sign-extended to 64 bits. -/
def signExtend (imm : Nat) : Nat := unsignedOf (signedOf imm 16) 64

/-- Result of an immediate operation on a 64-bit value and the raw IMM16 (R192). -/
def ImmOp.eval (op : ImmOp) (a imm : Nat) : Nat := match op with
  | .addi => AluOp.add.eval a (signExtend imm)
  | .andi => Nat.land a (imm % 2 ^ 16)
  | .ori => Nat.lor a (imm % 2 ^ 16)
  | .xori => Nat.xor a (imm % 2 ^ 16)
  | .slti => AluOp.slt.eval a (signExtend imm)
  | .sltiu => AluOp.sltu.eval a (signExtend imm)
  | .slli => AluOp.sll.eval a (imm % 64)
  | .srli => AluOp.srl.eval a (imm % 64)
  | .srai => AluOp.sra.eval a (imm % 64)

/-- Result of `liq`: one 16-bit quarter replaced (R197). -/
def liqEval (old q imm : Nat) : Nat := withBits old (16 * (q % 4)) 16 imm

/-- An R-type instruction of a thread. -/
def Dev.alu (d : Dev) (t : Nat) (op : AluOp) (rd a b : Nat) : Dev :=
  d.writes t (.alu op rd a b) rd fun x => op.eval (x.reg a) (x.reg b)

/-- An immediate instruction of a thread. -/
def Dev.immediate (d : Dev) (t : Nat) (op : ImmOp) (rd a imm : Nat) : Dev :=
  d.writes t (.imm op rd a imm) rd fun x => op.eval (x.reg a) imm

/-- `add`: ga + gb. -/
def execAdd (thread d a b : Nat) (s : State) : Answer := s.act fun x => x.alu thread .add d a b

/-- `sub`: ga - gb. -/
def execSub (thread d a b : Nat) (s : State) : Answer := s.act fun x => x.alu thread .sub d a b

/-- `and`: ga AND gb. -/
def execAnd (thread d a b : Nat) (s : State) : Answer := s.act fun x => x.alu thread .and d a b

/-- `or`: ga OR gb. -/
def execOr (thread d a b : Nat) (s : State) : Answer := s.act fun x => x.alu thread .or d a b

/-- `xor`: ga XOR gb. -/
def execXor (thread d a b : Nat) (s : State) : Answer := s.act fun x => x.alu thread .xor d a b

/-- `sll`: ga shifted left by gb[5:0]. -/
def execSll (thread d a b : Nat) (s : State) : Answer := s.act fun x => x.alu thread .sll d a b

/-- `srl`: ga shifted right by gb[5:0], zeros in. -/
def execSrl (thread d a b : Nat) (s : State) : Answer := s.act fun x => x.alu thread .srl d a b

/-- `sra`: ga shifted right by gb[5:0], sign in. -/
def execSra (thread d a b : Nat) (s : State) : Answer := s.act fun x => x.alu thread .sra d a b

/-- `slt`: 1 where signed ga < gb. -/
def execSlt (thread d a b : Nat) (s : State) : Answer := s.act fun x => x.alu thread .slt d a b

/-- `sltu`: 1 where unsigned ga < gb. -/
def execSltu (thread d a b : Nat) (s : State) : Answer := s.act fun x => x.alu thread .sltu d a b

/-- `mul`: Low 64 bits of the product. -/
def execMul (thread d a b : Nat) (s : State) : Answer := s.act fun x => x.alu thread .mul d a b

/-- `mulhu`: High 64 bits of the unsigned product. -/
def execMulhu (thread d a b : Nat) (s : State) : Answer := s.act fun x => x.alu thread .mulhu d a b

/-- `divu`: Unsigned quotient; all ones for a divisor of 0. -/
def execDivu (thread d a b : Nat) (s : State) : Answer := s.act fun x => x.alu thread .divu d a b

/-- `remu`: Unsigned remainder; ga for a divisor of 0. -/
def execRemu (thread d a b : Nat) (s : State) : Answer := s.act fun x => x.alu thread .remu d a b

/-- `not`: NOT ga. -/
def execNot (thread d a : Nat) (s : State) : Answer := s.act fun x => x.alu thread .not d a 0

/-- `pcnt`: Number of 1 bits in ga. -/
def execPcnt (thread d a : Nat) (s : State) : Answer := s.act fun x => x.alu thread .pcnt d a 0

/-- `ctz`: Trailing zero bits of ga; 64 for 0. -/
def execCtz (thread d a : Nat) (s : State) : Answer := s.act fun x => x.alu thread .ctz d a 0

/-- `clz`: Leading zero bits of ga; 64 for 0. -/
def execClz (thread d a : Nat) (s : State) : Answer := s.act fun x => x.alu thread .clz d a 0

/-- `addi`: ga plus the sign-extended immediate. -/
def execAddi (thread d a imm : Nat) (s : State) : Answer := s.act fun x => x.immediate thread .addi d a imm

/-- `andi`: ga AND the zero-extended immediate. -/
def execAndi (thread d a imm : Nat) (s : State) : Answer := s.act fun x => x.immediate thread .andi d a imm

/-- `ori`: ga OR the zero-extended immediate. -/
def execOri (thread d a imm : Nat) (s : State) : Answer := s.act fun x => x.immediate thread .ori d a imm

/-- `xori`: ga XOR the zero-extended immediate. -/
def execXori (thread d a imm : Nat) (s : State) : Answer := s.act fun x => x.immediate thread .xori d a imm

/-- `slti`: 1 where signed ga is below the sign-extended immediate. -/
def execSlti (thread d a imm : Nat) (s : State) : Answer := s.act fun x => x.immediate thread .slti d a imm

/-- `sltiu`: 1 where unsigned ga is below the sign-extended immediate. -/
def execSltiu (thread d a imm : Nat) (s : State) : Answer := s.act fun x => x.immediate thread .sltiu d a imm

/-- `slli`: ga shifted left by IMM16[5:0]. -/
def execSlli (thread d a imm : Nat) (s : State) : Answer := s.act fun x => x.immediate thread .slli d a imm

/-- `srli`: ga shifted right by IMM16[5:0], zeros in. -/
def execSrli (thread d a imm : Nat) (s : State) : Answer := s.act fun x => x.immediate thread .srli d a imm

/-- `srai`: ga shifted right by IMM16[5:0], sign in. -/
def execSrai (thread d a imm : Nat) (s : State) : Answer := s.act fun x => x.immediate thread .srai d a imm

/-- `liq`: quarter q of gd replaced. -/
def execLiq (thread d q imm : Nat) (s : State) : Answer := s.act fun x =>
  x.writes thread (.liq d q imm) d fun a => liqEval (a.reg d) q imm

end Sys2Proof.Machine
end

