-- ==== Sys2Proof/Machine/Flow.lean ====
section
/-! DEFINITION. The Gullot loads, stores, branches, jumps, capability and special-register instructions, `wait`, `post`, `halt`
and `note` (R166 to R173, R191 to R201, R210, R212 to R214). -/

namespace Sys2Proof.Machine

open Sys2Proof RegisterMap

/-! ## Loads and stores (R191, R193, R195) -/

/-- A byte range lies in the destination of an outstanding ticket. -/
def Activation.inDest (a : Activation) (s : Span) : Bool :=
  a.tickets.any fun t => t.2.result.isNone && t.2.dests.any s.meets

/-- A byte range lies in a source of an outstanding ticket. -/
def Activation.inSource (a : Activation) (s : Span) : Bool :=
  a.tickets.any fun t => t.2.result.isNone && t.2.sources.any s.meets

/-- A byte of an operand belongs to a packet of the slot that has not landed: its reader waits (R328). [log 75: DEDUCED] -/
def Dev.unlanded (d : Dev) (a : Activation) (s : Span) : Bool :=
  match a.work.slot with
  | none => false
  | some (w, b) => d.switch.landing.any fun p => match p.place with
    | .slot w' _ =>
      w' == w && p.breath == b && (match s.area with
        | .data => decide (s.start < p.offset + p.data.length) && decide (p.offset < s.start + s.length)
        | .checks => decide (s.start < p.offset / 256 + p.checks.length) && decide (p.offset / 256 < s.start + s.length)
        | _ => false)
    | _ => false

/-- A load of a size. [log 16: DEDUCED; log 75: DEDUCED] -/
def Dev.load (d : Dev) (t : Nat) (z : Size) (rd b imm : Nat) : Dev :=
  d.execute t (.load z rd b imm) fun a =>
    match a.effective (a.reg b) imm z.bytes Cap.mayRead with
    | .error c => .fault c
    | .ok s =>
      if a.inDest s || d.unlanded a s then .stall
      else .done d (a.setReg rd (leNat (d.areaBytes a s.area s.start z.bytes))) (a.pc + 1)

/-- A store of a size: the low bytes of the value. -/
def Dev.store (d : Dev) (t : Nat) (z : Size) (v b imm : Nat) : Dev :=
  d.execute t (.store z v b imm) fun a =>
    match a.effective (a.reg b) imm z.bytes Cap.mayWrite with
    | .error c => .fault c
    | .ok s =>
      if a.inDest s || a.inSource s then .stall
      else .done d (a.write s.area s.start (leBytes z.bytes (a.reg v))) (a.pc + 1)

/-- `ld.b`. -/
def execLdB (thread d b imm : Nat) (s : State) : Answer := s.act fun x => x.load thread .b d b imm
/-- `ld.h`. -/
def execLdH (thread d b imm : Nat) (s : State) : Answer := s.act fun x => x.load thread .h d b imm
/-- `ld.w`. -/
def execLdW (thread d b imm : Nat) (s : State) : Answer := s.act fun x => x.load thread .w d b imm
/-- `ld.d`. [log 75: DEDUCED] -/
def execLdD (thread d b imm : Nat) (s : State) : Answer := s.act fun x => x.load thread .d d b imm
/-- `st.b`. -/
def execStB (thread v b imm : Nat) (s : State) : Answer := s.act fun x => x.store thread .b v b imm
/-- `st.h`. -/
def execStH (thread v b imm : Nat) (s : State) : Answer := s.act fun x => x.store thread .h v b imm
/-- `st.w`. -/
def execStW (thread v b imm : Nat) (s : State) : Answer := s.act fun x => x.store thread .w v b imm
/-- `st.d`. -/
def execStD (thread v b imm : Nat) (s : State) : Answer := s.act fun x => x.store thread .d v b imm

/-! ## Control flow (R198) -/

/-- A branch's condition on two 64-bit values. -/
def Cond.holds (c : Cond) (a b : Nat) : Bool := match c with
  | .eq => a == b
  | .ne => a != b
  | .lt => decide (signedOf a 64 < signedOf b 64)
  | .ge => decide (signedOf b 64 ≤ signedOf a 64)
  | .ltu => decide (a < b)
  | .geu => decide (b ≤ a)

/-- A word index plus a signed offset field; below 0 the index lies past every code word. -/
def jumpTo (pc off w : Nat) : Nat := match (pc : Int) + signedOf off w with
  | .ofNat n => n
  | .negSucc _ => 2 ^ 64

/-- A branch. -/
def Dev.branch (d : Dev) (t : Nat) (c : Cond) (a b off : Nat) : Dev :=
  d.execute t (.branch c a b off) fun x => .done d x (if c.holds (x.reg a) (x.reg b) then jumpTo x.pc off 16 else x.pc + 1)

/-- `beq`. -/
def execBeq (thread a b off : Nat) (s : State) : Answer := s.act fun x => x.branch thread .eq a b off
/-- `bne`. -/
def execBne (thread a b off : Nat) (s : State) : Answer := s.act fun x => x.branch thread .ne a b off
/-- `blt`. -/
def execBlt (thread a b off : Nat) (s : State) : Answer := s.act fun x => x.branch thread .lt a b off
/-- `bge`. -/
def execBge (thread a b off : Nat) (s : State) : Answer := s.act fun x => x.branch thread .ge a b off
/-- `bltu`. -/
def execBltu (thread a b off : Nat) (s : State) : Answer := s.act fun x => x.branch thread .ltu a b off
/-- `bgeu`. -/
def execBgeu (thread a b off : Nat) (s : State) : Answer := s.act fun x => x.branch thread .geu a b off

/-- `j`. -/
def execJ (thread off : Nat) (s : State) : Answer := s.act fun x =>
  x.execute thread (.j off) fun a => .done x a (jumpTo a.pc off 26)

/-- `jal`: the next word index into gd. -/
def execJal (thread d off : Nat) (s : State) : Answer := s.act fun x =>
  x.execute thread (.jal d off) fun a => .done x (a.setReg d (a.pc + 1)) (jumpTo a.pc off 21)

/-- `jr`: an index of CODE_WORDS or more raises ILLEGAL. -/
def execJr (thread src : Nat) (s : State) : Answer := s.act fun x =>
  x.execute thread (.jr src) fun a => if a.reg src ≥ a.codeWords then .fault FaultCode.illegal else .done x a (a.reg src)

/-! ## Capabilities and special registers (R166, R168, R199 to R201) -/

/-- `mkca`. -/
def execMkca (thread d n src : Nat) (s : State) : Answer := s.act fun x =>
  x.execute thread (.mkca d n src) fun a =>
    if a.reg src / 2 ^ 48 ≠ 0 then .fault FaultCode.bounds
    else .done x (a.setReg d (n % 8 * 2 ^ 48 + a.reg src)) (a.pc + 1)

/-- The window that `capn` makes of a part of a window. [log 64: DEDUCED] -/
def Cap.narrow (c : Cap) (off len mask : Nat) : Cap := { c with
  base := c.base + off, length := len, mayRead := c.mayRead && bitOf mask 0, mayWrite := c.mayWrite && bitOf mask 1
  engSrc := c.engSrc && bitOf mask 2, engDst := c.engDst && bitOf mask 3 }

/-- `capn`: a range outside the source raises CAP_BOUNDS and changes nothing. An empty source gives an empty window. -/
def execCapn (thread cd cs a b mask : Nat) (s : State) : Answer := s.act fun x =>
  x.execute thread (.capn cd cs a b mask) fun t =>
    let off := t.reg a
    let len := t.reg b
    match find t.caps cs with
    | none => if off + len > 0 then .fault FaultCode.bounds else .done x { t with caps := drop t.caps cd } (t.pc + 1)
    | some c =>
      if off + len > c.length then .fault FaultCode.bounds
      else .done x { t with caps := put t.caps cd (c.narrow off len mask) } (t.pc + 1)

/-- SPACE code of an area (R168). -/
def Area.space : Area → Nat
  | .frame => 1
  | .scratch => 2
  | _ => 3

/-- A scap register as read (R168); an unassigned window reads 0. [log 64: DEDUCED] -/
def Activation.scap (a : Activation) (k : Nat) : Nat := match find a.caps k with
  | some c =>
    c.length + flag c.mayRead * 2 ^ 40 + flag c.mayWrite * 2 ^ 41 + flag c.engSrc * 2 ^ 42 + flag c.engDst * 2 ^ 43 + c.area.space * 2 ^ 44
  | none => 0

/-- A special register of a thread (R201). -/
def Dev.special (d : Dev) (t : Nat) (a : Activation) (n : Nat) : Nat :=
  if n = 0 then d.breath
  else if n = 1 then a.gen
  else if n = 2 then a.stag
  else if n = 3 then t / 8 + 64 * (t % 8)
  else if n = 4 then a.sinsn
  else a.scap (n - 8)

/-- `rds`. -/
def execRds (thread d src : Nat) (s : State) : Answer := s.act fun x =>
  x.writes thread (.rds d src) d fun a => x.special thread a src

/-! ## Tickets, posts and notes (R173, R210, R212 to R214) -/

/-- `wait`: a stall until the ticket completes, then its result into gd and the ticket freed. [log 65: DEDUCED] -/
def execWait (thread d t : Nat) (s : State) : Answer := s.act fun x =>
  x.execute thread (.wait d t) fun a => match find a.tickets (a.reg t) with
    | none => .fault FaultCode.ticket
    | some k => match k.result with
      | none => .stall
      | some v => .done x ({ a with tickets := drop a.tickets (a.reg t) }.setReg d v) (a.pc + 1)

/-- The completion that `post` gives: KIND 0 with STATUS and RESULT, or KIND 1 with the block counts modulo 2^24. -/
def Dev.postCompletion (d : Dev) (a : Activation) (g : Nat) : Dev := match a.work with
  | .command seq => d.complete seq (a.reg g % 256) (a.reg (g + 1))
  | .commit w b =>
    d.completeBreath w b (a.reg g % 256) (a.reg (g + 1) % 2 ^ 24) (a.reg (g + 2) % 2 ^ 24) (a.reg (g + 3) % 2 ^ 24)
  | .early _ _ _ => d

/-- `post`: drain, seal, completion. A second one, and one in kind 2, raises POST_TWICE. -/
def execPost (thread src now : Nat) (s : State) : Answer := s.act fun x =>
  let x := x.clock now
  x.execute thread (.post src) fun a =>
    if a.posted || a.work.kind = 2 then .fault FaultCode.postTwice
    else x.withSeal thread a fun e =>
      let b := (find e.chanters.threads thread).getD a
      .done (e.postCompletion b src).settle { b with posted := true, sealed := false } (b.pc + 1)

/-- Covered blocks of an early activation's cunit that it did not commit although a check failed (R102, R163). -/
def Dev.earlyRefused (d : Dev) (a : Activation) : Nat := match a.work with
  | .early w _ i =>
    if a.checkStatus = 0 then 0 else (((find d.memory.windows w).map fun x => ones x.slotBlocks (x.cunitMask i)).getD 0) - a.appended
  | _ => 0

/-- `halt`: the activation ends once its tickets are done; kind 2 seals first. -/
def execHalt (thread now : Nat) (s : State) : Answer := s.act fun x =>
  let x := x.clock now
  x.execute thread .halt fun a => match a.work with
    | .early w b i => x.withSeal thread a fun e =>
        .ended ((e.dropThread thread).endEarly w b i a.appended (x.earlyRefused a) a.checkStatus)
    | _ =>
      if !a.posted then .fault FaultCode.noPost
      else if a.tickets.any fun k => k.2.result.isNone then .stall
      else .ended (x.dropThread thread)

/-- `note`: PROGRAM_NOTE, one for each activation and 1,000 a second. -/
def execNote (thread src : Nat) (s : State) : Answer := s.act fun x =>
  x.execute thread (.note src) fun a =>
    let second := x.now / sec
    let x := if x.chanters.noteSecond = second then x else x.onChanters fun c => { c with noteSecond := second, notes := 0 }
    if a.noted then .done x a (a.pc + 1)
    else if x.chanters.notes ≥ 1000 then
      .done (x.onChanters fun c => { c with notesDropped := satAdd max32 c.notesDropped 1 }) a (a.pc + 1)
    else
      let e := x.post Cls.control 0x22 a.unit [b4 a.progId, b8 (a.reg src), b4 (a.reg (src + 1)), b4 x.chanters.notesDropped]
      .done (e.onChanters fun c => { c with notes := c.notes + 1, notesDropped := 0 }) { a with noted := true } (a.pc + 1)

end Sys2Proof.Machine
end

