-- ==== Sys2Proof/Machine/Engines.lean ====
section
/-! DEFINITION. The engine instructions and the end of their operations, the lanes of the compression and cipher engines, and
their faults (R172, R194, R195, R202 to R211, R229 to R234, R244 to R248, R253, R341). -/

namespace Sys2Proof.Machine

open Sys2Proof RegisterMap

/-! ## Lanes (R229, R231, R341)

Lanes 0 to 15 are the compress sides, 16 to 31 the decompress sides and 64 to 95 the XTS lanes X00 to X31. -/

/-- Lanes that serve an operation. -/
def EngineOp.lanes : EngineOp → List Nat
  | .zc => List.range 16
  | .zd => (List.range 16).map (· + 16)
  | .xtsEncrypt | .xtsDecrypt => (List.range 32).map (· + 64)
  | _ => []

/-- A lane is fenced. -/
def Dev.laneFenced (d : Dev) (n : Nat) : Bool := if n < 32 then d.compression.fenced.contains n else d.cipher.fenced.contains n

/-- Every lane that could serve an operation is fenced. -/
def Dev.lanesOut (d : Dev) (op : EngineOp) : Bool := !op.lanes.isEmpty && op.lanes.all d.laneFenced

/-- Every ticket of the module that has not completed: thread, number and ticket. -/
def Dev.running (d : Dev) : List (Nat × Nat × Ticket) :=
  (d.chanters.threads.map fun t => t.2.tickets.filterMap fun k => if k.2.result.isNone then some (t.1, k.1, k.2) else none).flatten

/-- The operation in service on a lane. -/
def Dev.onLane (d : Dev) (n : Nat) : Option (Nat × Nat × Ticket) := d.running.find? fun k => k.2.2.lane == some n

/-- Order in which an activation's operations are served: window activations by deadline edge, breath and window, then
command activations by ADMIT_SEQ (R340, R341). -/
def Dev.serviceKey (d : Dev) (t : Nat) : List Nat :=
  match find d.chanters.threads t with
  | none => []
  | some a => match a.work with
    | .commit w b => [0, b + 1 + ((find d.memory.windows w).map Window.deadline).getD 0, b, w]
    | .early w b _ => [0, b + 1, b, w]
    | .command _ => [1, a.seq, 0, 0]

/-- Lexicographic order of keys. -/
def keyBefore : List Nat → List Nat → Bool
  | a :: s, b :: t => decide (a < b) || (a == b && keyBefore s t)
  | [], b => !b.isEmpty
  | _, [] => false

/-- One ticket of a thread changed. -/
def Dev.onTicket (d : Dev) (t k : Nat) (f : Ticket → Ticket) : Dev :=
  d.onThread t fun a => { a with tickets := alter a.tickets k f }

/-- The first of some operations in the order of service. -/
def Dev.firstServed (d : Dev) (l : List (Nat × Nat × Ticket)) : Option (Nat × Nat × Ticket) :=
  l.foldl (fun best x => match best with
    | some b => if keyBefore (d.serviceKey x.1) (d.serviceKey b.1) then some x else best
    | none => some x) none

/-- The free lane that an operation can take. -/
def Dev.freeLane (d : Dev) (op : EngineOp) : Option Nat :=
  op.lanes.find? fun n => !d.laneFenced n && (d.onLane n).isNone && !(n == 95 && d.field (cip + 0x2C) 0 1 == 1)

/-- Free lanes take the waiting operations in order; a stopped operation waits for its resume. -/
def Dev.serve (d : Dev) : Nat → Dev
  | 0 => d
  | fuel + 1 =>
    let waits := d.running.filter fun k => k.2.2.lane.isNone && !k.2.2.stopped && (d.freeLane k.2.2.op).isSome
    match d.firstServed waits with
    | some (t, k, x) => match d.freeLane x.op with
      | some n => Dev.serve (d.onTicket t k fun y => { y with lane := some n }) fuel
      | none => d
    | none => d

/-- Every free lane offered the waiting operations. -/
def Dev.serveAll (d : Dev) : Dev := d.serve 80

/-! ## Issue (R172, R194, R195) -/

/-- The byte ranges an engine instruction names: sources and destinations. -/
abbrev Ranges := List Span × List Span

/-- Two results of operand checks in order. -/
def Ranges.both (a b : Except Nat Ranges) : Except Nat Ranges := match a, b with
  | .ok x, .ok y => .ok (x.1 ++ y.1, x.2 ++ y.2)
  | .error c, _ => .error c
  | _, .error c => .error c

/-- A source operand (ENG_SRC). -/
def Activation.source (a : Activation) (ca n : Nat) : Except Nat Ranges := (a.operand ca n Cap.engSrc).map fun s => ([s], [])

/-- A destination operand (ENG_DST). -/
def Activation.dest (a : Activation) (ca n : Nat) : Except Nat Ranges := (a.operand ca n Cap.engDst).map fun s => ([], [s])

/-- An operand that may be absent. -/
def optional (present : Bool) (x : Except Nat Ranges) : Except Nat Ranges := if present then x else .ok ([], [])

/-- An issue must wait: no free ticket, an overlap with an outstanding ticket, or bytes that have not landed. -/
def Dev.issueWaits (d : Dev) (a : Activation) (r : Ranges) : Bool :=
  decide (a.tickets.length ≥ 16) || (r.1 ++ r.2).any a.inDest || r.2.any a.inSource || (r.1 ++ r.2).any (d.unlanded a)

/-- The catch point of an opcode, `app` for a WRITE, `xout` for a READ and `unmap` for a DEALLOCATE: a command activation of
that opcode passes it (R175). -/
def Dev.passCatch (d : Dev) (a : Activation) (opcode : Nat) : Dev := match a.work with
  | .command q => if a.opcode ≠ opcode then d else d.onFront fun x => { x with flight := alter x.flight q fun f => { f with stage := .passed } }
  | _ => d

/-- The lowest-numbered free ticket allocated to an operation; its number goes to gt. [log 65: DEDUCED] -/
def Activation.allocate (a : Activation) (gt : Nat) (k : Ticket) : Activation :=
  match freeKey a.tickets 0 16 with
  | some n => { a with tickets := put a.tickets n k }.setReg gt n
  | none => a

/-- An engine instruction issued: `ranges` checks its capability operands, `range` gives the position of an operand value
outside its range, and `begin` carries out what happens at issue. -/
def Dev.issueEngine (d : Dev) (t gt gs : Nat) (op : EngineOp) (ranges : Activation → Except Nat Ranges)
    (refused : Activation → Option (Nat × Nat)) (begin' : Activation → Ticket → Dev → Ran) : Dev :=
  (d.execute t (.engine op gt gs) fun a =>
    match ranges a with
    | .error c => .fault c
    | .ok r =>
      if d.issueWaits a r then .stall
      else
        let k : Ticket := {
          op := op, a := a.reg gs, b := a.reg (gs + 1), c := a.reg (gs + 2), d := a.reg (gs + 3)
          sources := r.1, dests := r.2, refused := refused a }
        begin' a k d).serveAll

/-- An issue with nothing to do beside its ticket. [log 65: DEDUCED] -/
def startTicket (gt : Nat) (a : Activation) (k : Ticket) (d : Dev) : Ran := .done d (a.allocate gt k) (a.pc + 1)

/-- INVALID_FIELD with an operand's position, where a test fails. [log 66: DEDUCED] -/
def operandTests : List (Nat × Bool) → Option (Nat × Nat)
  | [] => none
  | (i, ok) :: t => if ok then operandTests t else some (Status.invalidField, i)

/-- Blocks of a count operand, [4:0]. -/
def blockCount (v : Nat) : Nat := v % 32

/-- A block count from 1 to 16. -/
def blocksOk (v : Nat) : Bool := decide (1 ≤ blockCount v) && decide (blockCount v ≤ 16)

/-- Largest stream of some blocks (R219). -/
def streamMax (blocks : Nat) : Nat := 16 + 4112 * blocks

/-- `zc`. -/
def execZc (thread d src : Nat) (s : State) : Answer := s.act fun x =>
  x.issueEngine thread d src .zc
    (fun a =>
      let n := blockCount (a.reg (src + 3))
      Ranges.both (a.source (a.reg src) (n * 4096)) <|
        Ranges.both (optional (a.reg (src + 1) != 0) (a.source (a.reg (src + 1)) (n * 16))) (a.dest (a.reg (src + 2)) (streamMax n)))
    (fun a => operandTests [(3, blocksOk (a.reg (src + 3)) && bitsOf (a.reg (src + 3)) 5 11 == 0)])
    (startTicket d)

/-- `zd`. -/
def execZd (thread d src : Nat) (s : State) : Answer := s.act fun x =>
  x.issueEngine thread d src .zd
    (fun a =>
      let v := a.reg (src + 3)
      let n := blockCount v
      Ranges.both (a.source (a.reg src) (bitsOf v 16 32)) <|
        Ranges.both (a.dest (a.reg (src + 1)) (n * 4096)) (optional (a.reg (src + 2) != 0) (a.dest (a.reg (src + 2)) (n * 16))))
    (fun a =>
      let v := a.reg (src + 3)
      operandTests [(3, blocksOk v && bitsOf v 5 11 == 0 && bitsOf v 16 32 != 0 && bitsOf v 48 16 == 0)])
    (startTicket d)

/-- `xts` (encrypt) and `xts.d` (decrypt). [log 66: DEDUCED] -/
def execXts (thread d src : Nat) (decrypt : Bool) (s : State) : Answer := s.act fun x =>
  x.issueEngine thread d src (if decrypt then .xtsDecrypt else .xtsEncrypt)
    (fun a => Ranges.both (a.source (a.reg src) (a.reg (src + 2))) (a.dest (a.reg (src + 1)) (a.reg (src + 2))))
    (fun a =>
      let n := a.reg (src + 2)
      let apart := match a.source (a.reg src) n, a.dest (a.reg (src + 1)) n with
        | .ok ([p], _), .ok (_, [q]) => decide (p = q) || !p.meets q
        | _, _ => true
      operandTests [(1, apart), (2, decide (16 ≤ n) && decide (n ≤ 131072)), (3, a.reg (src + 3) / 2 ^ 48 == 0)])
    (startTicket d)

/-! ### Append (R206) -/

/-- Status of an append by the tests of R206; 0 = accepted. -/
def Activation.appendStatus (a : Activation) (k : Ticket) : Nat :=
  let blocks := k.d
  let ready := a.marks.any fun m => m.sealedReady && k.sources == [m.span] && m.lba == k.c && m.blocks == blocks
  if !ready then Status.accessDenied
  else if a.work.kind = 0 && a.opcode != 2 then Status.accessDenied
  else if !a.covers k.c blocks then Status.accessDenied
  else if k.c + blocks > leAt a.frame 0x28 8 then Status.outOfRange
  else 0

/-- Entries of the tail index in use: changes of unapplied seals, and appends that no seal has taken yet. -/
def Dev.tailEntries (d : Dev) : Nat :=
  d.stripes.seals.foldl (fun n s => n + s.changes.length) 0 + d.chanters.threads.foldl (fun n t => n + t.2.pendings.length) 0

/-- Appends to the set of an activation's namespace wait: it is FORMATTING (R261) or under recovery, or two zones are free (R294). -/
def Dev.setBusy (d : Dev) (a : Activation) : Bool :=
  match (d.nsOf a).bind fun n => find d.stripes.sets n.set with
  | some t => t.recovering || decide (t.state = .formatting) || decide (t.freeZones ≤ 2)
  | none => false

/-- An accepted append placed in the tail with its journal record, where there is room. -/
def Dev.placeAppend (d : Dev) (t n : Nat) (a : Activation) (k : Ticket) : Dev :=
  match d.nsOf a with
  | none => d
  | some ns =>
    let r : Record := { Record.fresh ns.set .stream a.nsid k.c k.body with blocks := k.d }
    match d.place ns.set true r with
    | none => d
    | some (key, e) =>
      let where' := (find e.stripes.records key).getD r
      let e := e.journal ns.set (.append a.nsid k.c k.d where'.stripe where'.offset k.body.length a.seq)
      (e.onTicket t n fun k => { k with record := some key }).onThread t fun a => { a with pendings := a.pendings ++ [.append key k.c k.d] }

/-- `app`: the tests are made at issue; an accepted append is placed at once where there is room, else when room comes.
An issue waits while the journal ring, the tail index or the page pool is full. -/
def execApp (thread d src : Nat) (s : State) : Answer := s.act fun x =>
  x.issueEngine thread d src .app
    (fun a => a.source (a.reg src) (a.reg (src + 1)))
    (fun a => operandTests [(3, decide (1 ≤ a.reg (src + 3)) && decide (a.reg (src + 3) ≤ 16))])
    (fun a k e =>
      if k.refused.isSome then startTicket d a k (e.passCatch a 2)
      else
        let st := a.appendStatus k
        if st ≠ 0 then startTicket d a { k with refused := some (st, 0) } (e.passCatch a 2)
        else if e.journalFull || e.tailEntries ≥ 2 ^ 20 || e.setBusy a then .stall
        else match e.reservePages a.nsid k.c k.d with
          | (false, e) => .wait e
          | (true, e) =>
            let e := e.passCatch a 2
            let body := match k.sources with
              | p :: _ => e.areaBytes a p.area p.start p.length
              | [] => []
            let k := { k with body := body }
            let b := a.allocate d k
            let n := (freeKey a.tickets 0 16).getD 0
            let e := (e.onChanters fun c => { c with threads := put c.threads thread b }).placeAppend thread n b k
            .done e ((find e.chanters.threads thread).getD b) (a.pc + 1))

/-! ### Reads and transfers (R207 to R209, R211) -/

/-- Drive reads issued for the records of some blocks that have left the tail. -/
def Dev.readRecords (d : Dev) (nsid lba blocks : Nat) : Dev :=
  let keys := ((List.range blocks).filterMap fun i => match d.resolve nsid (lba + i) with
    | .stream k _ => some k
    | _ => none).eraseDups
  keys.foldl (fun d k => match find d.stripes.records k with
    | none => d
    | some r => match (find d.stripes.sets r.set).bind fun t => (find t.stripes r.stripe).map fun x => (t, x) with
      | none => d
      | some (t, x) =>
        if decide (x.life = .opened) || decide (x.life = .closed) then d else
        let l := t.layoutOf r.generation
        r.units.foldl (fun d u => match (l.unitMembers r.stripe u).find? fun i => !d.unavailable r.set t l r.stripe x.seq i with
          | some i => match find l.members i with
            | some m => d.issue m.bay (.recordRead k)
            | none => d
          | none => d) d) d

/-- `rdl`. [log 69: DEDUCED] -/
def execRdl (thread d src : Nat) (s : State) : Answer := s.act fun x =>
  x.issueEngine thread d src .rdl
    (fun a =>
      let n := blockCount (a.reg (src + 3))
      Ranges.both (a.dest (a.reg src) (n * 4096)) (optional (a.reg (src + 1) != 0) (a.dest (a.reg (src + 1)) (n * 16))))
    (fun a =>
      let v := a.reg (src + 3)
      operandTests [(3, blocksOk v && v / 2 ^ 17 == 0 && bitsOf v 5 11 == 0)])
    (fun a k e =>
      if k.refused.isSome then startTicket d a k e
      else if a.opcode ≠ 1 || !a.covers k.c (blockCount k.d) then startTicket d a { k with refused := some (Status.accessDenied, 0) } e
      else startTicket d a k (e.readRecords a.nsid k.c (blockCount k.d)))

/-- CHK_XFER of a command activation. -/
def Activation.chkXfer (a : Activation) : Bool := bitOf (byteAt a.frame 0x32) 0

/-- `xout`. A PEER transfer's DATA_WRITE messages start at issue; for HOST kinds and BUFFER the data leaves as the operation
completes. -/
def execXout (thread d src : Nat) (s : State) : Answer := s.act fun x =>
  x.issueEngine thread d src .xout
    (fun a => Ranges.both (a.source (a.reg src) (a.reg (src + 3)))
      (optional (a.reg (src + 1) != 0) (a.source (a.reg (src + 1)) (a.reg (src + 3) / 256))))
    (fun a =>
      let off := a.reg (src + 2)
      let len := a.reg (src + 3)
      operandTests [(1, (a.reg (src + 1) != 0) == a.chkXfer), (2, off % 4096 == 0),
        (3, len % 4096 == 0 && decide (4096 ≤ len) && decide (off + len ≤ a.range.2 * 4096))])
    (fun a k e =>
      let e := e.passCatch a 1
      if k.refused.isSome then startTicket d a k e
      else if a.opcode ≠ 1 then startTicket d a { k with refused := some (Status.accessDenied, 0) } e
      else
        let e := match a.work with
          | .command q => match find e.front.flight q, byteAt a.entry 21 % 8 with
            | some f, 2 =>
              let send (e : Dev) (p : Option Span) (addr : Nat) : Dev := match p with
                | some p => e.sendData f.sa 0 (leAt a.entry 32 4) addr 0 (e.areaBytes a p.area p.start p.length) (.readData q)
                | none => e
              send (send e k.sources[0]? (leAt a.entry 24 8 + k.c)) k.sources[1]? (leAt a.entry 36 8 + k.c / 256)
            | _, _ => e
          | _ => e
        startTicket d a k e)

/-- `unmap`. An issue waits while the journal ring or the tail index is full (R276, R283). -/
def execUnmap (thread d src : Nat) (s : State) : Answer := s.act fun x =>
  x.issueEngine thread d src .unmap (fun _ => .ok ([], []))
    (fun a => operandTests [(1, decide (1 ≤ a.reg (src + 1)) && decide (a.reg (src + 1) < 2 ^ 32)), (2, a.reg (src + 2) == 0),
      (3, a.reg (src + 3) == 0)])
    (fun a k e =>
      let e := e.passCatch a 3
      if k.refused.isSome then startTicket d a k e
      else if a.opcode ≠ 3 || !a.covers k.a k.b then startTicket d a { k with refused := some (Status.accessDenied, 0) } e
      else if e.journalFull || e.tailEntries ≥ 2 ^ 20 then .stall
      else startTicket d a k e)

/-- Bytes of a placement record of `mapq`. -/
def placementBytes : Nat := 64

/-- `mapq`: the placement of gs+3 blocks from LBA gs+2 into scratch at gs. [log 67: DESIGN CHOICE] -/
def execMapq (thread d src : Nat) (s : State) : Answer := s.act fun x =>
  x.issueEngine thread d src .mapq (fun a => (a.operand (a.reg src) placementBytes Cap.mayWrite).map fun p => ([], [p]))
    (fun _ => none) (startTicket d)

/-- `rdc`: the stored cunit that the record at gs names, into gs+1 for up to gs+2 bytes. [log 67: DESIGN CHOICE] -/
def execRdc (thread d src : Nat) (s : State) : Answer := s.act fun x =>
  x.issueEngine thread d src .rdc
    (fun a => Ranges.both ((a.operand (a.reg src) placementBytes Cap.mayRead).map fun p => ([p], [])) (a.dest (a.reg (src + 1)) (a.reg (src + 2))))
    (fun _ => none) (startTicket d)

/-! ## Completion (R173) -/

/-- A 64-bit ticket result. -/
def ticketResult (status detail index bytes : Nat) : Nat := status + detail * 2 ^ 8 + index * 2 ^ 16 + bytes * 2 ^ 32

/-- A DEADLINE operation that completes after its deadline edge is counted (R341). -/
def Dev.countLate (d : Dev) (t : Nat) : Dev := match d.serviceKey t with
  | 0 :: edge :: _ => d.when (decide (edge ≤ d.breath)) fun d => d.count (RegisterMap.sch + 0x1C)
  | _ => d

/-- A ticket completed with a result; its lane is free for the next operation. -/
def Dev.finish (d : Dev) (t k status detail index bytes now : Nat) : Dev :=
  let d := d.countLate t
  let d := d.onTicket t k fun x => { x with result := some (ticketResult status detail index bytes), lane := none }
  (d.tagTicket t k status (d.tagCycles t now)).serveAll

/-- The operation of a ticket that completes: it is outstanding, of the right kind, and in service where lanes serve it. A
refused operand, and a direction whose lanes are all fenced, complete with their status and change nothing. -/
def Dev.completeTicket (d : Dev) (t k now : Nat) (is : EngineOp → Bool) (f : Activation → Ticket → Dev → Dev) : Dev :=
  let d := d.clock now
  match (find d.chanters.threads t).bind fun a => (find a.tickets k).map fun x => (a, x) with
  | none => d
  | some (a, x) =>
    if !is x.op || x.result.isSome then d
    else match x.refused with
      | some (st, i) => d.finish t k st 0 i 0 now
      | none =>
        if d.lanesOut x.op then d.finish t k Status.unitFenced 0 0 0 now
        else if !x.op.lanes.isEmpty && x.lane.isNone then d
        else f a x d

/-- Blocks `lba …` of a window breath settled: durable, or refused (R104). -/
def Dev.settleBlocks (d : Dev) (a : Activation) (lba blocks : Nat) : Dev := match a.work.slot with
  | some (w, b) => d.onWindow w fun x =>
      if (find x.breaths b).isNone then x else
        x.onBreath b fun y => { y with settled := Nat.lor y.settled (blockRange (lba - a.range.1) blocks) }
  | none => d

/-- Blocks of a window's slot that compression has read; a slot read whole is free (R98). [log 69: DEDUCED] -/
def Dev.readBlocks (d : Dev) (a : Activation) (first blocks : Nat) : Dev := match a.work.slot with
  | some (w, b) => d.onWindow w fun x => x.onSlot b fun y =>
      let read := Nat.lor y.read (blockRange first blocks)
      let closed := (x.breathOf b).seq.isSome
      { y with read := read, held := y.held && !(closed && without y.covered read == 0) }
  | none => d

/-- A check failure of a window's cunit: WINDOW_CHECK_FAIL, and the cunit's covered blocks are settled as refused (R102). -/
def Dev.failCheck (d : Dev) (t : Nat) (a : Activation) (lba status : Nat) : Dev := match a.work.slot with
  | some (w, b) =>
    let i := lba - a.range.1
    let d := d.windowEvent w 0x23 [b8 b, b4 i, b1 status]
    (d.settleBlocks a (a.range.1 + i / 16 * 16) 16).onThread t fun a =>
      { a with checkStatus := if a.checkStatus = 0 then status else a.checkStatus }
  | none => d

/-- ZC_COMPLETE: the check fields verified or generated, the stream in its output and its range marked. -/
def execZcComplete (thread ticket now : Nat) (s : State) : Answer := s.act fun x =>
  x.completeTicket thread ticket now (· == .zc) fun a k d =>
    let blocks := blockCount k.d
    let lba := k.d / 2 ^ 16
    let bytes (i : Nat) : Bytes := match k.sources[i]? with
      | some p => d.areaBytes a p.area p.start p.length
      | none => []
    let tag := leAt a.frame 0x30 2
    let data := bytes 0
    let d := (d.setReg (cpe + 0x20) ((d.reg (cpe + 0x20) + 4112 * blocks) % 2 ^ 64))
    let d := match k.sources[0]? with
      | some p => if p.area = Area.data then d.readBlocks a (p.start / 4096) blocks else d
      | none => d
    let wrong := if k.b = 0 then none else firstFault data (bytes 1) (some tag) lba blocks
    match wrong with
    | some (i, st) => (d.failCheck thread a (lba + i) st).finish thread ticket st 0 i 0 now
    | none =>
      let fields := if k.b = 0 then checkFields data tag lba blocks else bytes 1
      let origin := if a.work.kind = 0 then 0 else leAt a.frame 0x48 8
      let e := encodeStream (leAt a.frame 0x34 4) origin lba blocks data fields
      let d := if e.raw then d.count (cpe + 0x14) else d
      let d := if e.range then d.count (cpe + 0x18) else d
      let d := d.setReg (cpe + 0x28) ((d.reg (cpe + 0x28) + e.bytes.length) % 2 ^ 64)
      let d := d.onThread thread fun a => match k.dests with
        | p :: _ =>
          let out : Span := { p with length := e.bytes.length }
          let a := a.write p.area p.start e.bytes
          { a with marks := { span := out, lba := lba, blocks := blocks, sealedReady := false } :: a.marks }
        | [] => a
      d.finish thread ticket Status.ok 0 0 e.bytes.length now

/-- ZD_COMPLETE: the stream decoded, or MEDIA_UNREADABLE where it does not decode to the expected blocks. -/
def execZdComplete (thread ticket now : Nat) (s : State) : Answer := s.act fun x =>
  x.completeTicket thread ticket now (· == .zd) fun a k d =>
    let blocks := blockCount k.d
    let stream := match k.sources with
      | p :: _ => d.areaBytes a p.area p.start p.length
      | [] => []
    match decodeStream stream blocks with
    | none =>
      let d := d.count (cpe + 0x1C)
      let d := { d with compression := { d.compression with secondUndecodable := d.compression.secondUndecodable + 1 } }
      d.finish thread ticket Status.mediaUnreadable 0 0 0 now
    | some (data, fields) =>
      let d := d.onThread thread fun a => match k.dests with
        | [p] => a.write p.area p.start data
        | p :: q :: _ => (a.write p.area p.start data).write q.area q.start fields
        | [] => a
      d.finish thread ticket Status.ok 0 0 (blocks * 4096) now

/-- The at-rest key of a namespace: key 1 and key 2 (R245). -/
def Dev.restKey (d : Dev) (a : Activation) : Bytes × Bytes :=
  let key := ((d.nsOf a).bind fun n => find d.cipher.keys n.keyId).map KeyEntry.key |>.getD (zeros 64)
  (slice key 0 32, slice key 32 32)

/-- The tweak of a stream (R245). -/
def tweakOf (lba nsid : Nat) : Bytes := leBytes 8 lba ++ leBytes 4 nsid ++ zeros 4

/-- XTS_COMPLETE: the bytes transformed, and a marked `zc` output made sealed-ready (R205). -/
def execXtsComplete (thread ticket now : Nat) (s : State) : Answer := s.act fun x =>
  x.completeTicket thread ticket now (fun o => o == .xtsEncrypt || o == .xtsDecrypt) fun a k d =>
    match k.sources, k.dests with
    | p :: _, q :: _ =>
      let text := d.areaBytes a p.area p.start p.length
      let (k1, k2) := d.restKey a
      let tweak := tweakOf (k.d % 2 ^ 48) a.nsid
      let out := if k.op = .xtsEncrypt then Xts.encrypt k1 k2 tweak text else Xts.decrypt k1 k2 tweak text
      let mark := if k.op = .xtsEncrypt then a.marks.find? fun m => !m.sealedReady && m.span == p && m.lba == k.d else none
      let d := d.onThread thread fun a =>
        let a := a.write q.area q.start out
        match mark with
        | some m => { a with marks := { m with span := q, sealedReady := true } :: a.marks }
        | none => a
      d.finish thread ticket Status.ok 0 0 p.length now
    | _, _ => d

/-- The stripe that holds a record has been written to the drives. [log 68: DEDUCED] -/
def Dev.recordWritten (d : Dev) (k : Nat) : Bool :=
  match (find d.stripes.records k).bind fun r => (find d.stripes.sets r.set).bind fun t => find t.stripes r.stripe with
  | some x => decide (x.life = .written) || decide (x.life = .committed)
  | none => true

/-- APP_COMPLETE: the cunit is in the persistent region and the mirror with its journal record, or on the drives while the
partner is not standby-ready (R174). [log 68: DEDUCED] -/
def execAppComplete (thread ticket now : Nat) (s : State) : Answer := s.act fun x =>
  x.completeTicket thread ticket now (· == .app) fun a k d =>
    let d := if k.record.isSome then d else d.placeAppend thread ticket a k
    match ((find d.chanters.threads thread).bind fun a => find a.tickets ticket).bind Ticket.record with
    | none => d
    | some r =>
      if d.standbyReady || d.recordWritten r then
        ((d.settleBlocks a k.c k.d).onThread thread fun a => { a with appended := a.appended + k.d }).finish thread ticket Status.ok 0 0 0 now
      else d

/-- What `rdl` finds for one block: its data and check field, or the status of its failure. -/
inductive BlockRead where
  | good (data check : Bytes)
  | bad (status : Nat)

/-- Data and check field of a block that was never written (R140). -/
def unwrittenBlock (lba : Nat) : Bytes × Bytes := (zeros 4096, checkField (zeros 4096) 0xFFFF (lba % 2 ^ 48))

/-- The records that some blocks need, in block order. -/
def Dev.recordsOf (d : Dev) (nsid lba blocks : Nat) : List Nat :=
  ((List.range blocks).filterMap fun i => match d.resolve nsid (lba + i) with
    | .stream k _ => some k
    | _ => none).eraseDups

/-- One stored stream decrypted and decoded. [log 69: DEDUCED] -/
def Dev.openRecord (d : Dev) (a : Activation) (r : Record) : Option (Bytes × Bytes) :=
  let (k1, k2) := d.restKey a
  decodeStream (Xts.decrypt k1 k2 (tweakOf r.first a.nsid) r.body) r.blocks

/-- One block of a read: the loss log, the tail or the map, the media's outcome, then the stored check field (R140, R207). [log 69: DEDUCED] -/
def Dev.readBlock (d : Dev) (a : Activation) (media : List (Nat × Media)) (lba : Nat) (appCheck : Bool) : BlockRead :=
  match d.resolve a.nsid lba with
  | .unwritten => .good (unwrittenBlock lba).1 (unwrittenBlock lba).2
  | .lost => .bad Status.mediaLost
  | .stream k i =>
    match find d.stripes.records k with
    | none => .bad Status.mediaUnreadable
    | some r =>
      if (media.find? fun m => m.1 == k && m.2 == Media.lost).isSome then .bad Status.mediaUnreadable else
      match d.openRecord a r with
      | none => .bad Status.mediaUnreadable
      | some (data, checks) =>
        let block := slice data (4096 * i) 4096
        let field := slice checks (16 * i) 16
        if (checkFault block field none lba).isSome then .bad Status.mediaUnreadable
        else if appCheck && beNat (slice field 8 2) != 0xFFFF && beNat (slice field 8 2) != leAt a.frame 0x30 2 then .bad Status.checkAppTag
        else .good block field

/-- RDL_COMPLETE: blocks read; `media` gives the outcome of each stored record the read needs, in block order. Rebuilt
records are repaired, unreadable ones queued for the scrub (R290, R291). -/
def execRdlComplete (thread ticket : Nat) (media : List Media) (now : Nat) (s : State) : Answer := s.act fun x =>
  x.completeTicket thread ticket now (· == .rdl) fun a k d =>
    let blocks := blockCount k.d
    let keys := d.recordsOf a.nsid k.c blocks
    let found := keys.zip media
    let coded := keys.any fun j => match find d.stripes.records j with
      | some r => (match d.openRecord a r with
        | some _ => true
        | none => false) && byteAt (Xts.decrypt (d.restKey a).1 (d.restKey a).2 (tweakOf r.first a.nsid) (r.body.take 32)) 1 % 4 != 0
      | none => false
    if (!keys.isEmpty && d.lanesOut .xtsEncrypt) || (coded && d.lanesOut .zd) then d.finish thread ticket Status.unitFenced 0 0 0 now else
    let appCheck := bitOf k.d 16
    let reads := (List.range blocks).map fun i => d.readBlock a found (k.c + i) appCheck
    let outs := ((List.range blocks).zip reads).map fun p => match p.2 with
      | .good b f => (b, f)
      | .bad _ => unwrittenBlock (k.c + p.1)
    let first := ((List.range blocks).zip reads).findSome? fun p => match p.2 with
      | .bad st => some (p.1, st)
      | .good _ _ => none
    let d := d.onThread thread fun a => match k.dests with
      | [p] => a.write p.area p.start (outs.map Prod.fst).flatten
      | p :: q :: _ => (a.write p.area p.start (outs.map Prod.fst).flatten).write q.area q.start (outs.map Prod.snd).flatten
      | [] => a
    let d := found.foldl (fun d m => match m.2 with
      | .good => d
      | .rebuilt member => d.repaired m.1 member
      | .lost => d.unreadable m.1) d
    match first with
    | some (i, st) => d.finish thread ticket st 0 i (blocks * 4096) now
    | none => d.finish thread ticket Status.ok 0 0 (blocks * 4096) now

/-- Bytes sent to the destination of a READ on the host or in a buffer region. [log 43: DEDUCED] -/
def Dev.deliver (d : Dev) (e : Bytes) (list : List (Nat × Nat)) (off caddr : Nat) (data checks : Bytes) : Dev :=
  match byteAt e 21 % 8 with
  | 0 => (d.hostWrite (leAt e 24 8 + off) data).hostWrite caddr checks
  | 1 =>
    let d := (rangesIn off data.length 0 list).foldl (fun d r => d.hostWrite r.2.1 (slice data (r.1 - off) r.2.2)) d
    d.hostWrite caddr checks
  | 3 =>
    let i := leAt e 32 4 / 256
    (d.writeRegion i (leAt e 24 8 + off) data).writeRegion i caddr checks
  | _ => d

/-- DATA_WRITE messages of a command are still unacknowledged. [log 43: DEDUCED] -/
def Dev.peerSending (d : Dev) (seq : Nat) : Bool := d.transport.sent.any fun m => match m.2.purpose with
  | .readData q => q == seq
  | _ => false

/-- XOUT_COMPLETE: the transfer is done, or has failed with a source of R138 (`failure`, or what a NACK or give-up of a PEER
transfer left). [log 43: DEDUCED] -/
def execXoutComplete (thread ticket failure now : Nat) (s : State) : Answer := s.act fun x =>
  x.completeTicket thread ticket now (· == .xout) fun a k d =>
    match a.work with
    | .command q =>
      let kind := byteAt a.entry 21 % 8
      let peer := ((find d.front.flight q).map InFlight.payloadFail).getD 0
      let origin := (find d.front.flight q).bind InFlight.origin
      let fail := if kind = 2 then peer else if kind ≤ 1 && origin.isNone && !d.busMaster then 2 else failure
      if kind = 2 && fail = 0 && d.peerSending q then d
      else if fail ≠ 0 then
        (d.onFront fun f => { f with flight := alter f.flight q fun c => { c with payloadFail := fail } }).finish thread ticket
          Status.transferFailed (fail % 256) 0 0 now
      else
        let bytes (i : Nat) : Bytes := match k.sources[i]? with
          | some p => d.areaBytes a p.area p.start p.length
          | none => []
        let d := match origin, decide (kind ≠ 2) with
          | some o, true => d.emit (.peer (.readData o k.c (bytes 0) (bytes 1)))
          | _, _ => d.deliver a.entry a.list k.c (leAt a.entry 36 8 + k.c / 256) (bytes 0) (bytes 1)
        d.finish thread ticket Status.ok 0 0 k.d now
    | _ => d

/-- UNMAP_COMPLETE: the range is journalled and waits for the seal. -/
def execUnmapComplete (thread ticket now : Nat) (s : State) : Answer := s.act fun x =>
  x.completeTicket thread ticket now (· == .unmap) fun a k d =>
    match d.nsOf a with
    | some n =>
      ((d.journal n.set (.unmap a.nsid k.a k.b a.seq)).onThread thread fun a => { a with pendings := a.pendings ++ [.unmap k.a k.b] }).finish
        thread ticket Status.ok 0 0 0 now
    | none => d

/-- MAPQ_COMPLETE. [log 67: DESIGN CHOICE] -/
def execMapqComplete (thread ticket now : Nat) (s : State) : Answer := s.act fun x =>
  x.completeTicket thread ticket now (· == .mapq) fun _ k d =>
    let b := padTo placementBytes (Config.mapRecord k.c (blockCount k.d))
    (d.onThread thread fun a => match k.dests with
      | p :: _ => a.write p.area p.start b
      | [] => a).finish thread ticket Status.ok 0 0 placementBytes now

/-- RDC_COMPLETE: a stored cunit as it lies in the stripe store. [log 67: DESIGN CHOICE] -/
def execRdcComplete (thread ticket now : Nat) (s : State) : Answer := s.act fun x =>
  x.completeTicket thread ticket now (· == .rdc) fun a k d =>
    match k.sources, k.dests with
    | p :: _, q :: _ =>
      let key := Config.cunitOf (d.areaBytes a p.area p.start p.length)
      match find d.stripes.records key with
      | some r =>
        let b := r.body.take q.length
        (d.onThread thread fun a => a.write q.area q.start b).finish thread ticket Status.ok 0 0 b.length now
      | none => d.finish thread ticket Status.mediaUnreadable 0 0 0 now
    | _, _ => d

/-! ## Lanes that stop, resume or fail (R231 to R234, R247, R248, R253) -/

/-- Stopped operations of some lanes. -/
def Dev.stoppedOn (d : Dev) (compress : Bool) : List (Nat × Nat × Ticket) :=
  d.running.filter fun k => k.2.2.stopped && (k.2.2.op == if compress then EngineOp.zc else EngineOp.zd)

/-- CPE_LANE_STOP: the operation is recorded in a resume record, where one of the 64 is free, and the lane takes the next. -/
def execCpeLaneStop (lane consumed produced : Nat) (s : State) : Answer := s.act fun d =>
  match d.onLane lane with
  | some (t, k, _) =>
    if lane ≥ 32 || (d.stoppedOn (lane < 16)).length ≥ 64 then d else
    ((d.onTicket t k fun x => { x with lane := none, stopped := true, consumed := consumed, produced := produced }).count (cpe + 0x10)).serveAll
  | none => d

/-- CPE_LANE_RESUME: a stopped operation resumes on a free side, ahead of every operation that has not started. -/
def execCpeLaneResume (lane : Nat) (s : State) : Answer := s.act fun d =>
  if lane ≥ 32 || d.laneFenced lane || (d.onLane lane).isSome then d else
  match d.firstServed (d.stoppedOn (lane < 16)) with
  | some (t, k, _) => d.onTicket t k fun x => { x with lane := some lane, stopped := false }
  | none => d

/-- CPE_UNDECODABLE_SUMMARY: once per second, where the count is not 0. -/
def execCpeUndecodableSummary (s : State) : Answer := s.act fun d =>
  let n := d.compression.secondUndecodable
  if n = 0 then d else ({ d with compression := { d.compression with secondUndecodable := 0 } }).post Cls.control 0x31 0 [b4 n]

/-- A compression lane side fenced; its operation runs again on another side (R233). -/
def Dev.fenceCpeLane (d : Dev) (lane : Nat) : Dev :=
  if d.compression.fenced.contains lane || lane ≥ 32 then d else
  let op := d.onLane lane
  let d := { d with compression := { d.compression with fenced := lane :: d.compression.fenced } }
  let d := match op with
    | some (t, k, _) => d.onTicket t k fun x => { x with lane := none, consumed := 0, produced := 0 }
    | none => d
  (d.post Cls.control 0x30 (lane % 16) [b1 (lane / 16), b4 (flag op.isSome)]).serveAll

/-- A cipher lane fenced: an XTS operation runs again on another lane; a packet in service on a GCM lane is dropped where it
was being received (R253). `receiving` says so. -/
def Dev.fenceCipherLane (d : Dev) (lane : Nat) (receiving : Bool) : Dev :=
  if d.cipher.fenced.contains lane || lane ≥ 96 then d else
  let op := d.onLane lane
  let d := d.onCipher fun c => { c with fenced := lane :: c.fenced }
  let d := match op with
    | some (t, k, _) => d.onTicket t k fun x => { x with lane := none }
    | none => d
  let dropped := receiving && lane < 64
  let d := if dropped then d.count (cip + 0x24) else d
  (d.post Cls.control 0x38 lane [b1 (flag dropped)]).serveAll

/-- CIP_LANE_STOP: a context record is saved, wrapped under the KSK with the next sequence number. On a GCM lane, `thread`
and `ticket` name the SA and the packet. -/
def execCipLaneStop (lane thread ticket : Nat) (s : State) : Answer := s.act fun d =>
  let c : CipherContext := { thread := thread, ticket := ticket, seq := d.cipher.contextSeq }
  if lane < 64 then
    if d.cipher.gcmContexts.length ≥ 64 then d else
    (d.onCipher fun x => { x with gcmContexts := c :: x.gcmContexts, contextSeq := x.contextSeq + 1 }).count (cip + 0x1C)
  else match d.onLane lane with
    | some (t, k, _) =>
      if t ≠ thread || k ≠ ticket || d.cipher.xtsContexts.length ≥ 64 then d else
      let d := d.onCipher fun x => { x with xtsContexts := c :: x.xtsContexts, contextSeq := x.contextSeq + 1 }
      ((d.onTicket t k fun x => { x with lane := none, stopped := true }).count (cip + 0x1C)).serveAll
    | none => d

/-- CIP_LANE_RESUME: the record verifies and the operation goes on; a record whose key entry is no longer LIVE or ACTIVE is
damaged, is counted, and its operation runs again from its start. -/
def execCipLaneResume (lane thread ticket : Nat) (s : State) : Answer := s.act fun d =>
  let mine (c : CipherContext) : Bool := c.thread == thread && c.ticket == ticket
  if lane < 64 then
    if !d.cipher.gcmContexts.any mine then d else
    let d := d.onCipher fun x => { x with gcmContexts := x.gcmContexts.filter fun c => !mine c }
    if d.saActive thread then d else d.count (cip + 0x20)
  else
    if !d.cipher.xtsContexts.any mine || d.laneFenced lane || (d.onLane lane).isSome then d else
    let d := d.onCipher fun x => { x with xtsContexts := x.xtsContexts.filter fun c => !mine c }
    let live := match (find d.chanters.threads thread).bind d.nsOf with
      | some n => d.liveDek n.keyId
      | none => false
    let d := d.onTicket thread ticket fun x => { x with lane := some lane, stopped := false }
    if live then d else d.count (cip + 0x20)

end Sys2Proof.Machine
end

