-- ==== Sys2Proof/Machine/Starting.lean ====
section
/-! DEFINITION. Starting activations: the frame and the windows of an activation, the choice among waiting
work, and the fetch of a command's data (R134 to R137, R143, R146, R150, R161 to R164, R169, R179, R183, R340). -/

namespace Sys2Proof.Machine

open Sys2Proof RegisterMap

/-! ## Frames and windows (R164, R169) -/

/-- A byte string with some pieces put at their offsets. -/
def layout (n : Nat) (pieces : List (Nat × Bytes)) : Bytes := pieces.foldl (fun b p => patch b p.1 p.2) (zeros n)

/-- What is common to every frame. -/
def Dev.frame (d : Dev) (prog kind seq gen breath nsid cq appTag flags coder : Nat) (param : Bytes) (rest : List (Nat × Bytes)) : Bytes :=
  let blocks := ((find d.stripes.namespaces nsid).map Namespace.size).getD 0
  layout 256 ([(0, leBytes 4 prog), (4, leBytes 1 kind), (8, leBytes 8 seq), (0x10, leBytes 8 gen), (0x18, leBytes 8 breath),
    (0x20, leBytes 4 nsid), (0x24, leBytes 4 cq), (0x28, leBytes 8 blocks), (0x30, leBytes 2 appTag), (0x32, leBytes 1 flags),
    (0x34, leBytes 4 coder), (0x80, padTo 32 param)] ++ rest)

/-- A window over the whole of an area; an empty one is not assigned. -/
def capOver (n : Nat) (area : Area) (length : Nat) (r w src dst : Bool) : Table Cap :=
  if length = 0 then [] else
    [(n, { area := area, base := 0, length := length, mayRead := r, mayWrite := w, engSrc := src, engDst := dst })]

/-- c0, c1 and c4. -/
def commonCaps (scratch : Nat) (middle : Table Cap) (last : Table Cap) : Table Cap :=
  capOver 0 .frame 256 true false false false ++ capOver 1 .scratch scratch true true false false ++ middle ++
    capOver 4 .staging 131072 true true true true ++ last

/-- Windows of a command activation. -/
def commandCaps (scratch op blocks : Nat) (chk : Bool) : Table Cap :=
  let rights (n : Nat) (a : Area) (len : Nat) : Table Cap :=
    if op = 2 then capOver n a len true false true false else if op = 1 then capOver n a len false false true true else []
  commonCaps scratch (rights 2 .data (blocks * 4096) ++ (if chk then rights 3 .checks (blocks * 16) else [])) []

/-- Windows of a window activation. -/
def windowCaps (scratch : Nat) (w : Window) : Table Cap :=
  commonCaps scratch (capOver 2 .data (w.slotBlocks * 4096) true false true false ++
      (if w.checkCarried then capOver 3 .checks (w.slotBlocks * 16) true false true false else []))
    (capOver 5 .coverage (2 * w.cunits) true false false false)

/-! ## Overlap and readiness (R22, R143, R146, R150) -/

/-- The block range of a READ, WRITE or DEALLOCATE; `none` where it holds none. -/
def rangeOf (entry : Bytes) : Option (Nat × Nat) :=
  let op := opcodeOf entry
  let n := leAt entry 16 4
  if decide (1 ≤ op) && decide (op ≤ 3) && n != 0 then some (leAt entry 8 8, n) else none

/-- Two block ranges share a block. -/
def sharesBlock (a b : Nat × Nat) : Bool := decide (a.1 < b.1 + b.2) && decide (b.1 < a.1 + a.2)

/-- Some piece of work with a smaller ADMIT_SEQ overlaps a range of a namespace. -/
def Dev.held (d : Dev) (seq nsid : Nat) (range : Nat × Nat) : Bool :=
  (d.front.flight.any fun f => decide (f.1 < seq) && nsidOf f.2.entry == nsid && (match rangeOf f.2.entry with
    | some r => sharesBlock r range && f.2.stage != Stage.forwarded && f.2.stage != Stage.leaving
    | none => false)) ||
  d.commits.any fun c => decide (c.2.1 < seq) && c.2.2.1 == nsid && sharesBlock c.2.2.2 range

/-- Host ingress is refused because the staging area is full: queued WRITEs wait in admission (R22, R331). -/
def Dev.stagingFull (d : Dev) : Bool := match d.switch.refusing with
  | some (1, _) => true
  | _ => false

/-- A waiting command is ready for dispatch. -/
def Dev.ready (d : Dev) (seq : Nat) (f : InFlight) : Bool :=
  decide (f.stage = .waiting) && d.settled (nsidOf f.entry) && (match rangeOf f.entry with
    | some r => !d.held seq (nsidOf f.entry) r && !(opcodeOf f.entry == 2 && d.stagingFull)
    | none => false)

/-! ## Threads (R150, R162, R178) -/

/-- A thread that may take an activation. -/
def Dev.threadFree (d : Dev) (t : Nat) : Bool :=
  decide (t < 384) && !d.chanters.fenced.contains (t / 8) && (find d.chanters.threads t).isNone

/-- Threads that command activations may use: those that are not fenced, less the reserve. -/
def Dev.commandThreads (d : Dev) : Nat := (384 - 8 * d.chanters.fenced.length) - d.field cha 0 9

/-- A free thread may take a command. [log 113: DEDUCED] -/
def Dev.mayDispatch (d : Dev) : Bool :=
  decide ((d.chanters.threads.filter fun t => t.2.work.kind == 0).length < d.commandThreads)

/-! ## Window activations (R163, R340) -/

/-- Closed breaths whose commit may start: deadline edge, breath, window. [log 113: DEDUCED] -/
def Dev.startable (d : Dev) : List (List Nat) :=
  (d.memory.windows.map fun w => w.2.breaths.filterMap fun b =>
    match b.2.seq with
    | some q =>
      if !b.2.started && decide (w.2.mode ≠ .fenced) && d.settled w.2.nsid && b.2.earlyEnded == b.2.taken && !d.held q w.2.nsid (w.2.lbaOf b.1, w.2.slotBlocks)
      then some [b.1 + 1 + w.2.deadline, b.1, w.1] else none
    | none => none).flatten

/-- Early cunits that wait: deadline edge, breath, window, cunit. -/
def Dev.startableEarly (d : Dev) : List (List Nat) :=
  (d.memory.windows.map fun w => (w.2.breaths.map fun b =>
    if decide (w.2.mode = .fenced) || !d.settled w.2.nsid then [] else
    (List.range w.2.cunits).filterMap fun i =>
      if bitOf b.2.taken i && !bitOf b.2.earlyStarted i then some [b.1 + 1, b.1, w.1, i] else none).flatten).flatten

/-- The first of some keys. -/
def firstKey (l : List (List Nat)) : Option (List Nat) :=
  l.foldl (fun best x => match best with
    | some b => if keyBefore x b then some x else best
    | none => some x) none

/-- An activation that a window starts: the commit of a breath, or one early cunit. -/
def Dev.windowActivation (d : Dev) (w b : Nat) (x : Window) (work : Work) (rest : List (Nat × Bytes)) (covered : Nat) : Activation :=
  let y := x.breathOf b
  let p := if y.seq.isSome then y.bound else d.boundTo (windowBinding w) 0x10
  let seq := d.admitSeq (y.seq.getD d.front.admitNext)
  let gen := if y.seq.isSome then y.gen else d.control.gen
  { work := work, progId := p.prog, version := p.version, codeWords := p.codeWords, pc := p.entry, caps := windowCaps p.scratch x
    frame := d.frame p.prog work.kind seq gen b x.nsid x.cq x.appTag (flag x.checkCarried) x.coder p.param
      ([(0x40, leBytes 2 w), (0x44, leBytes 4 x.slotBlocks), (0x48, leBytes 8 (x.lbaOf b))] ++ rest)
    covered := covered, cunits := x.cunits, limit := p.limit, nsid := x.nsid, cq := x.cq, stag := w, gen := gen, opcode := 0 }

/-- An activation put on a thread. -/
def Dev.startOn (d : Dev) (t : Nat) (a : Activation) : Dev := d.onChanters fun c => { c with threads := put c.threads t a }

/-- Blocks of a breath in cunits taken early. -/
def Window.takenMask (w : Window) (b : Nat) : Nat :=
  (List.range w.cunits).foldl (fun m i => if bitOf (w.breathOf b).taken i then Nat.lor m (w.cunitMask i) else m) 0

/-- The commit of a window's breath started on a thread. [log 113: DEDUCED] -/
def Dev.startCommit (d : Dev) (t w b : Nat) : Dev :=
  match find d.memory.windows w with
  | none => d
  | some x =>
    let y := x.breathOf b
    let early := Nat.land y.covered (x.takenMask b)
    let rest := [(0x50, leBytes 4 (ones x.slotBlocks early)), (0x54, leBytes 4 y.earlyCommitted), (0x58, leBytes 4 y.earlyBad),
      (0x5C, leBytes 1 y.earlyStatus)]
    let d := d.onWindow w fun x => x.onBreath b fun y => { y with started := true }
    d.startOn t (d.windowActivation w b x (.commit w b) rest (without y.covered early))

/-- Waiting commits and early cunits that stand before a key of R340: deadline edge, breath, window. [log 113: DEDUCED] -/
def Dev.startsBefore (d : Dev) (k : List Nat) : Bool :=
  (d.startable ++ d.startableEarly).any fun x => keyBefore (x.take 3) (k.take 3)

/-- WINDOW_COMMIT_START: a free thread takes the waiting commit with the earliest deadline edge, then breath, then window, where no
early cunit stands before it. [log 113: DEDUCED] -/
def execWindowCommitStart (thread now : Nat) (s : State) : Answer := s.running fun d =>
  let d := d.clock now
  if !d.threadFree thread then d else
  match (firstKey d.startable).filter fun k => !d.startsBefore k with
  | some [_, b, w] => d.startCommit thread w b
  | _ => d

/-- EARLY_CUNIT_START: a free thread takes a cunit of a DEADLINE = 0 window whose every block is covered, where no window work
stands before it (R163, R340). [log 113: DEDUCED] -/
def execEarlyCunitStart (thread window cunit now : Nat) (s : State) : Answer := s.running fun d =>
  let d := d.clock now
  if !d.threadFree thread then d else
  match d.startableEarly.find? fun k => k.drop 2 == [window, cunit] && !d.startsBefore k, find d.memory.windows window with
  | some (_ :: b :: _), some x =>
    let a := d.windowActivation window b x (.early window b cunit) [(0x60, leBytes 4 cunit)] (x.cunitMask cunit)
    (d.onWindow window fun x => x.onBreath b fun y => { y with earlyStarted := Nat.lor y.earlyStarted (2 ^ cunit) }).startOn thread a
  | _, _ => d

/-! ## The choice among queued commands (R150, R151) -/

/-- Class of a command: 4 = URGENT. -/
def classOf (entry : Bytes) : Nat := if bitOf (byteAt entry 1) 2 then 4 else byteAt entry 1 % 4

/-- The oldest ready command of a queue and class. [log 40: DEDUCED] -/
def Dev.oldestReady (d : Dev) (sq cls : Nat) : Option Nat :=
  (d.front.flight.find? fun f => f.2.sq == sq && classOf f.2.entry == cls && d.ready f.1 f.2).map Prod.fst

/-- Queue keys in round-robin order after one of them, that one last. -/
def Dev.after (d : Dev) (key : Nat) : List Nat :=
  let ks := d.front.sqs.map Prod.fst
  (ks.filter fun k => decide (k > key)) ++ ks.filter fun k => decide (k ≤ key)

/-- The urgent pass. [log 40: DEDUCED] -/
def Dev.pickUrgent (d : Dev) : Option (Nat × Dev) :=
  (d.after d.front.lastUrgentSq).findSome? fun k =>
    match find d.front.sqs k, d.oldestReady k 4 with
    | some q, some seq =>
      if q.urgentLeft = 0 then none
      else some (seq, (d.onSq k fun q => { q with urgentLeft := q.urgentLeft - 1 }).onFront fun f => { f with lastUrgentSq := k })
    | _, _ => none

/-- W_LEFT of a class. -/
def Sq.left (q : Sq) : Nat → Nat
  | 0 => q.left0 | 1 => q.left1 | 2 => q.left2 | _ => q.left3

/-- Weight of a class. -/
def Arbitration.weight (a : Arbitration) : Nat → Nat
  | 0 => a.w0 | 1 => a.w1 | 2 => a.w2 | _ => a.w3

/-- W_LEFT of a class set. [log 40: DEDUCED] -/
def Sq.setLeft (q : Sq) (c v : Nat) : Sq := match c with
  | 0 => { q with left0 := v } | 1 => { q with left1 := v } | 2 => { q with left2 := v } | _ => { q with left3 := v }

/-- The class pass within a queue: its class and the queue with its counts moved on. [log 40: DEDUCED] -/
def Dev.pickClass (d : Dev) (key : Nat) : Nat → Nat → Sq → Option (Nat × Sq)
  | 0, _, _ => none
  | fuel + 1, c, q =>
    if (d.oldestReady key c).isSome && q.left c != 0 then some (c, { q.setLeft c (q.left c - 1) with currentClass := c })
    else Dev.pickClass d key fuel ((c + 1) % 4) (q.setLeft c (q.arb.weight c))

/-- Some class 0 to 3 of a queue has a ready command. -/
def Dev.hasWeighted (d : Dev) (key : Nat) : Bool := [0, 1, 2, 3].any fun c => (d.oldestReady key c).isSome

/-- The weighted pass over the queues from the current one on. [log 40: DEDUCED] -/
def Dev.pickWeighted (d : Dev) : List Nat → Option (Nat × Dev)
  | [] => none
  | k :: rest => match find d.front.sqs k with
    | none => Dev.pickWeighted d rest
    | some q =>
      if d.hasWeighted k && q.shareLeft != 0 then
        match d.pickClass k 9 q.currentClass { q with shareLeft := q.shareLeft - 1 } with
        | some (c, q') => (d.oldestReady k c).map fun seq =>
            (seq, (d.onSq k fun _ => q').onFront fun f => { f with currentSq := k })
        | none => none
      else Dev.pickWeighted (d.onSq k fun q => { q with shareLeft := q.arb.share }) rest

/-- The command that a free thread takes. -/
def Dev.pickCommand (d : Dev) : Option (Nat × Dev) :=
  match d.pickUrgent with
  | some x => some x
  | none =>
    let ks := d.front.sqs.map Prod.fst
    let order := (ks.filter fun k => decide (k ≥ d.front.currentSq)) ++ ks.filter fun k => decide (k < d.front.currentSq)
    if order.any d.hasWeighted then d.pickWeighted (order ++ order ++ order) else none

/-! ## The data of a command (R134, R135, R137) -/

/-- A READ_REQ of the module for what it fetches (R58, R72). [log 42: DEDUCED] -/
def Dev.readRequest (d : Dev) (sa key offset length : Nat) (what : FetchFor) : Dev :=
  let (id, d) := d.openMessage sa 1 key [(offset, 0, beBytes 4 length ++ zeros 12)] (.fetch what)
  let r : OutRequest := { sa := sa, msgId := id, what := what, length := length, data := [], received := 0 }
  d.onTransport fun t => { t with requests := put t.requests (sa * 2 ^ 32 + id) r }

/-- The thread that runs a command. -/
def Dev.threadOf (d : Dev) (seq : Nat) : Option (Nat × Activation) :=
  d.chanters.threads.find? fun t => match t.2.work with
    | .command q => q == seq
    | _ => false

/-- Reads of host memory for a WRITE's data and check fields begun: without a bus master they fail with source 2 (R456). [log 42: DEDUCED] -/
def Dev.fetchHost (d : Dev) (t seq : Nat) (ranges : List (Nat × Nat)) (checks : Option (Nat × Nat)) : Dev :=
  if !d.busMaster then d.endCommand seq Status.transferFailed 2 else
  let d := d.onThread t fun a => { a with awaiting := ranges.length + flag checks.isSome }
  let d := (ranges.foldl (fun (p : Dev × Nat) r => (p.1.hostRead (.data seq p.2 false) r.1 r.2, p.2 + r.2)) (d, 0)).1
  match checks with
  | some (a, n) => d.hostRead (.data seq 0 true) a n
  | none => d

/-- What a dispatched command begins with: the fetch of a WRITE's data by its kind, and the read of a list. -/
def Dev.beginFetch (d : Dev) (t seq : Nat) (f : InFlight) : Dev :=
  let e := f.entry
  let blocks := leAt e 16 4
  let addr := leAt e 24 8
  -- the data of a forwarded command of another kind than PEER has come, or goes, over PL
  if f.origin.isSome && byteAt e 21 % 8 != 2 then
    d.onThread t fun a => { a with
      data := writeBytes [] 0 (f.payload.take (blocks * 4096)), checks := writeBytes [] 0 (f.payload.drop (blocks * 4096)) }
  else
  match opcodeOf e, byteAt e 21 % 8 with
  | 2, 0 => d.fetchHost t seq [(addr, blocks * 4096)] (checksOf e)
  | 1, 1 | 2, 1 =>
    if !d.busMaster then d.endCommand seq Status.transferFailed 2
    else (d.onThread t fun a => { a with awaiting := 1 }).hostRead (.list seq) addr (leAt e 22 2 * 16)
  | 2, 2 =>
    let key := leAt e 32 4
    let d := (d.onThread t fun a => { a with awaiting := 1 + flag (checksOf e).isSome }).readRequest f.sa key addr (blocks * 4096) (.data seq false)
    match checksOf e with
    | some (c, n) => d.readRequest f.sa key c n (.data seq true)
    | none => d
  | 2, 3 => match d.bufferRegion (leAt e 32 4) with
    | some (_, r) =>
      d.onThread t fun a => { a with
        data := writeBytes [] 0 (readBytes r.mem addr (blocks * 4096))
        checks := match checksOf e with
          | some (c, n) => writeBytes [] 0 (readBytes r.mem c n)
          | none => [] }
    | none => d
  | _, _ => d

/-- One part of a command's data has arrived; its first instruction runs when none is outstanding. -/
def Dev.dataArrived (d : Dev) (seq offset : Nat) (checks : Bool) (b : Bytes) : Dev :=
  match d.threadOf seq with
  | some (t, _) => d.onThread t fun a => { a with
      awaiting := a.awaiting - 1
      data := if checks then a.data else writeBytes a.data offset b
      checks := if checks then writeBytes a.checks offset b else a.checks }
  | none => d

/-- The list of a command has arrived: a failing element completes it; else the fetch of a WRITE goes on. -/
def Dev.listArrived (d : Dev) (seq : Nat) (b : Bytes) : Dev :=
  match d.threadOf seq, find d.front.flight seq with
  | some (t, _), some f =>
    let count := leAt f.entry 22 2
    match listFault (leAt f.entry 16 4) b count with
    | some result => d.endCommand seq Status.invalidField result
    | none =>
      let d := d.onThread t fun a => { a with awaiting := 0, list := listRanges b count }
      if opcodeOf f.entry = 2 then d.fetchHost t seq (listRanges b count) (checksOf f.entry) else d
  | _, _ => d

/-- A READ, WRITE or DEALLOCATE given a thread. -/
def Dev.dispatch (d : Dev) (t seq : Nat) : Dev :=
  match find d.front.flight seq with
  | none => d
  | some f =>
    let op := opcodeOf f.entry
    let nsid := nsidOf f.entry
    let p := f.bound
    let cq := ((find d.front.sqs f.sq).map Sq.cq).getD 0
    let coder := ((find d.stripes.namespaces nsid).map Namespace.coder).getD 0
    let transfer := op ≤ 2
    let flags := if transfer then flag (bitOf (byteAt f.entry 20) 1) + 2 * flag (bitOf (byteAt f.entry 20) 0) else 0
    let tag := if transfer then leAt f.entry 44 2 else 0
    let a : Activation := {
      work := .command seq, progId := p.prog, version := p.version, codeWords := p.codeWords, pc := p.entry
      caps := commandCaps p.scratch op (leAt f.entry 16 4) (transfer && bitOf (byteAt f.entry 20) 1)
      frame := d.frame p.prog 0 (d.admitSeq seq) f.gen f.breath nsid (queueNumber cq) tag flags coder p.param [(0x40, f.entry)]
      limit := p.limit, nsid := nsid, cq := cq, stag := leAt f.entry 2 2 + queueNumber f.sq * 65536, gen := f.gen, opcode := op }
    let d := d.onFront fun x => { x with flight := alter x.flight seq fun f => { f with stage := .dispatched } }
    (d.startOn t a).beginFetch t seq f

/-- COMMAND_DISPATCH: a free thread outside the reserve takes the command that R150 chooses, where no window activation
waits. -/
def execCommandDispatch (thread now : Nat) (s : State) : Answer := s.running fun d =>
  let d := d.clock now
  if !d.threadFree thread || !d.mayDispatch || !d.startable.isEmpty || !d.startableEarly.isEmpty then d else
  match d.pickCommand with
  | some (seq, d) => d.dispatch thread seq
  | none => d

end Sys2Proof.Machine
end

