-- ==== Sys2Proof/Machine/Failover.lean ====
section
/-! DEFINITION. The partner: the peer link and its pair key, heartbeats and status lines, mirroring and copies received, failure,
take-over, resynchronisation and the return of sets (R106, R155, R236, R333, R381 to R394, R490). -/

namespace Sys2Proof.Machine

open Sys2Proof RegisterMap

/-- Sets of the partner, as the mirror holds them. -/
def Dev.partnerSets (d : Dev) : List Nat := d.peer.sets.map Prod.fst

/-- Bitmap of some sets. -/
def setMap (l : List Nat) : Nat := bitmap 16 l.contains

/-! ## The peer link (R382, R383) -/

/-- PL copies discarded: the packets count as admitted, and their ACKs are due (R333). -/
def Dev.releaseCopies (d : Dev) : Dev :=
  d.memory.plCopies.foldl (fun d c => d.admitted c.sa c.msgId false) (d.onMemory fun m => { m with plCopies := [] })

/-- PL_LINK_UP: each module sends its certificates. -/
def execPlLinkUp (now : Nat) (s : State) : Answer := s.act fun d =>
  let d := d.clock now
  if d.peer.linkUp then d else (d.onPeer fun p => { p with linkUp := true }).emit (.peer .certificates)

/-- PL_LINK_DOWN: the partner counts as ABSENT, and queued copies are discarded. -/
def execPlLinkDown (now : Nat) (s : State) : Answer := s.act fun d =>
  let d := d.clock now
  if !d.peer.linkUp then d else
  let d := d.onPeer fun p => { p with linkUp := false, pairKey := none, state := .absent }
  ((d.flushPoint 260).releaseCopies).controlEvent 0x70 0 [b1 1]

/-- The claim a module sends when the pair key is agreed in phase 4 (R490): the breath of its dump is 0 when none was used. [log 91: DEDUCED] -/
def Dev.claim (d : Dev) : PeerSend :=
  let dump (s : Option DumpSlot) : Nat := match s with
    | some x => if x.complete then x.breath else 0
    | none => 0
  .claim d.slot (setMap d.startUp.claimed) (if d.startUp.dumpUsed then max (dump d.power.dumpA) (dump d.power.dumpB) else 0) d.breath

/-- PAIR_KEY_EXCHANGE: a failed check leaves PL down for data; else the key is taken, and the partner's VERSION judged against this
manifest's PEER_MIN and the other way round. [log 89: DEDUCED] -/
def execPairKeyExchange (failedStep : Nat) (key : Bytes) (version peerMin now : Nat) (s : State) : Answer := s.act fun d =>
  let d := d.clock now
  if !d.peer.linkUp then d
  else if failedStep ≠ 0 then
    (d.onPeer fun p => { p with pairKey := none, state := .absent }).post Cls.security 0x30 0 [b1 failedStep]
  else
    let ok := decide (manifestPeerMin d.trust.running ≤ version) && decide (peerMin ≤ manifestVersion d.trust.running)
    let d := d.onPeer fun p => { p with
      pairKey := some key, selfReady := false, state := if ok then .syncing else .absent, resyncFrom := now, resyncTries := 0 }
    d.when (d.startUp.phase == 4) fun d => d.emit (.peer d.claim)

/-- PAIR_KEY_RETRY. -/
def execPairKeyRetry (now : Nat) (s : State) : Answer := s.act fun d =>
  let d := d.clock now
  d.when (d.peer.linkUp && d.peer.pairKey.isNone) fun d => d.emit (.peer .certificates)

/-- PAIR_KEY_REKEY. -/
def execPairKeyRekey (key : Bytes) (s : State) : Answer := s.act fun d =>
  d.onPeer fun p => { p with pairKey := p.pairKey.map fun _ => key }

/-! ## Heartbeats and lines (R384 to R386) -/

/-- The heartbeat the module sends now. -/
def Dev.heartbeat (d : Dev) : Heartbeat := {
  seq := d.peer.seq, slot := d.slot, ready := d.peer.selfReady, updating := decide (d.trust.stage = .activating)
  degraded := d.control.degraded, owned := d.owned, breath := d.breath, edgePs := d.grid.lastEdge
  ckptJseq := d.stripes.checkpointJseq, configGen := d.control.gen, version := manifestVersion d.trust.running }

/-- HEARTBEAT_SEND: while the generator runs the watchdog asserts the alive line, and the owner line follows it; the heartbeat leaves
where PL carries frames under the pair key. A halted Drone, a save and a start that has not reached the Drone send none. -/
def execHeartbeatSend (now : Nat) (s : State) : Answer := s.act fun d =>
  let d := d.clock now
  if d.control.halted || d.power.saving.isSome || decide (d.startUp.phase < 3) then d else
  let d := (d.onPeer fun p => { p with aliveOut := true, seq := p.seq + 1 }).driveOwner
  d.when (d.peer.linkUp && d.peer.pairKey.isSome) fun d => d.emit (.peer (.heartbeat d.heartbeat))

/-- HEARTBEAT_RX: accepted when its frame verifies, its SLOT is the other one and its HB_SEQ is above the last. -/
def execHeartbeatRx (h : Heartbeat) (verified : Bool) (now : Nat) (s : State) : Answer := s.act fun d =>
  let d := d.clock now
  let fresh := match d.peer.last with
    | some l => decide (l.seq < h.seq)
    | none => true
  if !verified || !d.peer.linkUp || d.peer.pairKey.isNone || h.slot == d.slot || !fresh then d else
  (d.onPeer fun p => { p with last := some h, lastAt := now }).peerSample h.breath h.edgePs now

/-- ALIVE_RELEASE: 3 ms after the last heartbeat sent. -/
def execAliveRelease (now : Nat) (s : State) : Answer := s.act fun d => (d.clock now).releaseAlive

/-- PARTNER_LINE_CHANGE. -/
def execPartnerLineChange (alive owner : Bool) (s : State) : Answer := s.act fun d =>
  d.onPeer fun p => { p with aliveIn := alive, ownerIn := owner }

/-! ## The mirror (R106, R268, R272, R390) -/

/-- Slot copies of breaths that a set's image shows to be complete are dropped. -/
def keptCopies (x : SetImage) (l : List SlotCopy) : List SlotCopy := l.filter fun c => match find x.windows c.window with
  | some w => !(decide (c.breath ≤ w.lastBreath) && (find w.breaths c.breath).isNone)
  | none => true

/-- ADMIT_SEQs that commands forwarded from here got at the owner. -/
def Dev.learnSeqs (d : Dev) (l : List (Nat × Nat)) : Dev :=
  l.foldl (fun d p => d.onFront fun f => { f with flight := alter f.flight p.1 fun y =>
    if y.stage = .forwarded then { y with ownerSeq := some p.2 } else y }) d

/-- The image of a set received: one of the partner's enters the mirror share; one that names this module as the owner of a set that
nobody holds here is taken. -/
def Dev.mirrorIn (d : Dev) (n : Nat) (x : SetImage) : Dev :=
  let held := (find d.stripes.sets n).isSome
  if x.set.owner = d.slot then
    if held then d else (d.takeSet n x).onPeer fun p => { p with sets := drop p.sets n }
  else if d.ownsSet n then d
  else
    let d := d.when held fun d => d.onStripes fun y => { y with
      sets := drop y.sets n, namespaces := y.namespaces.filter fun s => s.2.set != n, records := y.records.filter fun r => r.2.set != n
      seals := y.seals.filter fun s => s.set != n, journal := y.journal.filter fun r => r.set != n }
    (d.onPeer fun p => { p with sets := put p.sets n x, slots := keptCopies x p.slots }).learnSeqs x.forwarded

/-- MIRROR_APPEND_RX. [log 88: DEDUCED] -/
def execMirrorAppendRx (m : Mirrored) (s : State) : Answer := s.running fun d =>
  let d := match m with
    | .set n x => d.mirrorIn n x
    | .response r => d.onPeer fun p => { p with theirs := p.theirs ++ [r] }
    | .responded sa msgId => d.onPeer fun p => { p with theirs := p.theirs.filter fun r => !(r.sa == sa && r.msgId == msgId) }
  d.emit (.peer (.acknowledge 1))

/-- SAs of the partner whose index is in use here. [log 88: DEDUCED] -/
def Dev.saClash (d : Dev) : List Nat := d.peer.installed.sas.filterMap fun a => if (find d.transport.sas a.1).isSome then some a.1 else none

/-- The SAs of the partner whose index is not in use here. The next MSG_ID of an adopted SA is free. [log 88: DEDUCED] -/
def Dev.adoptSas (d : Dev) : Dev :=
  d.peer.installed.sas.foldl (fun d a =>
    if (find d.transport.sas a.1).isSome then d else
    let (r, d) := d.draw 4
    d.onTransport fun t => { t with sas := put t.sas a.1 { a.2 with nextMsg := leNat r, ackDue := [], nackDue := [], unacked := 0 } }) d

/-- STANDBY_COPY_RX: the partner's installed state replaces the copy held, and sets that it begins to hand over bring their windows
here, which take in the packets labelled after the edge (R394). [log 88: DEDUCED] -/
def execStandbyCopyRx (x : Installed) (s : State) : Answer := s.running fun d =>
  let d := d.onPeer fun p => { p with installed := x }
  let new := x.handbacks.filter fun h => (find d.peer.handbacks h.1).isNone && (find d.peer.sets h.1).isSome
  let d := new.foldl (fun d h => match find d.peer.sets h.1 with
    | some i =>
      ((d.onPeer fun p => { p with
        handbacks := put p.handbacks h.1 { edge := h.2, incoming := true, requestedAt := d.now } }).adoptSas.adoptCode i).adoptWindows i d.saClash false
    | none => d) d
  d.emit (.peer (.acknowledge 2))

/-! ## Failure and take-over (R387 to R390) -/

/-- Steps 1 to 3 of R388. -/
def Dev.takeOver (d : Dev) : Dev :=
  let sets := d.partnerSets
  let d := d.onPeer fun p => { p with
    state := .failed, taking := sets, taken := [], takeFrom := p.lastAt, takeAborted := 0, takeRerun := 0, handbacks := [] }
  let clash := d.saClash
  let d := clash.foldl (fun d a => d.post Cls.security 0x31 a [b1 (1 - d.slot)]) d.adoptSas
  let d := d.peer.sets.foldl (fun d x =>
    (((d.adoptCode x.2).takeSet x.1 x.2).awaitRecovery x.1).adoptWindows x.2 clash true) d
  ((d.onPeer fun p => { p with sets := [] }).driveOwner).controlEvent 0x71 0 [b1 1, b4 (setMap sets)]

/-- A partner lost without its sets: queued copies are released, and commands forwarded to it end here (R155, R333). -/
def Dev.endForwards (d : Dev) : Dev :=
  let d := d.releaseCopies
  d.front.flight.foldl (fun d f => if f.2.stage = .forwarded ∨ f.2.stage = .leaving then d.complete f.1 Status.admissionRefused 0 else d) d

/-- The peer link declared down: both modules keep their own sets (R387). -/
def Dev.linkLost (d : Dev) : Dev :=
  let was := d.peer.state
  let d := d.onPeer fun p => { p with state := .absent, selfReady := false, last := none }
  (d.when (decide (was ≠ .absent)) fun d => d.controlEvent 0x70 0 [b1 0]).endForwards

/-- PARTNER_FAILED: no heartbeat for 5 ms, judged by the partner's lines and by what its last heartbeat carried. -/
def execPartnerFailed (now : Nat) (s : State) : Answer := s.running fun d =>
  let d := d.clock now
  match d.peer.last with
  | none => d
  | some h =>
    if decide (d.peer.state = .failed) || decide (now < d.peer.lastAt + 5 * ms) then d
    else if d.peer.aliveIn then d.linkLost
    else if d.peer.ownerIn then d
    else if h.ready && d.peer.selfReady then d.takeOver
    else
      ((d.onPeer fun p => { p with state := .absent, selfReady := false, last := none }).controlEvent 0x71 0
        [b1 0, b4 (setMap d.partnerSets)]).endForwards

/-- Breaths of adopted windows that only the failed owner held complete ABORTED; those whose slots were copied are committed. -/
def Dev.settleBreaths (d : Dev) (sets : List Nat) : Dev :=
  let windows := (sets.map d.windowsOn).flatten
  windows.foldl (fun d w => match find d.memory.windows w with
    | some x =>
      if x.replPartner then d else
      (x.breaths.filter fun b => b.2.seq.isSome && !b.2.started).foldl (fun d b =>
        (d.completeBreath w b.1 Status.aborted 0 x.slotBlocks 0).onPeer fun p => { p with takeAborted := p.takeAborted + 1 }) d
    | none => d) d

/-- A READ, WRITE or DEALLOCATE begins at the owner of its set: one of zero length completes, or is a flush; any other waits for a
thread (R136, R143). -/
def Dev.startIo (d : Dev) (seq : Nat) : Dev :=
  match find d.front.flight seq with
  | none => d
  | some f =>
    let op := opcodeOf f.entry
    let g : InFlight := { f with
      stage := .waiting, ownerSeq := none, bound := d.boundTo (commandBinding (nsidOf f.entry) op) op }
    if op ≤ 2 ∧ leAt f.entry 16 4 = 0 then
      if op = 2 ∧ bitOf (byteAt f.entry 20) 0 = true then
        (d.onFront fun x => { x with flight := put x.flight seq { g with stage := .awaiting } }).settle
      else d.complete seq Status.okZeroLength 0
    else d.onFront fun x => { x with flight := put x.flight seq g }

/-- ABORT decides: 1 CAUGHT, 2 TOO_LATE, 3 NO_SUCH_TAG. A caught target completes first (R153, R154). [log 39: DEDUCED; log 123: DEDUCED] -/
def Dev.decideAbort (d : Dev) (seq : Nat) (target : Option Nat) : Dev :=
  match target.bind fun t => (find d.front.flight t).map fun f => (t, f) with
  | none => d.complete seq Status.ok 3
  | some (t, f) =>
    let io := decide (1 ≤ opcodeOf f.entry) && decide (opcodeOf f.entry ≤ 3)
    if io && (decide (f.stage = .waiting) || decide (f.stage = .dispatched) || decide (f.stage = .awaiting)) then
      (d.endCommand t Status.aborted 0).complete seq Status.ok 1
    else d.complete seq Status.ok 2

/-- A forwarded command whose owner is lost, or has given the set up, runs here. -/
def Dev.runHere (d : Dev) (seq : Nat) (f : InFlight) : Dev :=
  if opcodeOf f.entry = 8 then d.decideAbort seq (some (leNat f.payload)) else d.startIo seq

/-- A forwarded command runs again, and is counted. -/
def Dev.runAgain (d : Dev) (seq : Nat) (f : InFlight) : Dev :=
  (d.runHere seq f).onPeer fun p => { p with takeRerun := p.takeRerun + 1 }

/-- Namespace that decides where a forwarded command runs: an ABORT goes where its target has gone. -/
def Dev.forwardNs (d : Dev) (f : InFlight) : Nat :=
  if opcodeOf f.entry = 8 then ((find d.front.flight (leNat f.payload)).map fun t => nsidOf t.entry).getD (nsidOf f.entry) else nsidOf f.entry

/-- Forwarded commands of the sets: complete where their SEAL lies in the mirror, and run again from their start elsewhere. -/
def Dev.settleForwarded (d : Dev) (sets : List Nat) : Dev :=
  d.front.flight.foldl (fun d f =>
    let mine := (f.2.stage = .forwarded ∨ f.2.stage = .leaving) ∧ ((find d.stripes.namespaces (d.forwardNs f.2)).any fun n => sets.contains n.set) = true
    if mine then match f.2.ownerSeq with
      | some q =>
        if d.stripes.seals.any fun x => x.seq == q then d.completeAs f.1 q Status.ok 0
        else d.runAgain f.1 f.2
      | none => d.runAgain f.1 f.2
    else d) d

/-- The partner's unacknowledged RESPONSEs sent again under their MSG_IDs from TRY 0; one past 51 ms is given up (R69, R390). -/
def Dev.resendResponses (d : Dev) : Dev :=
  let list := d.peer.theirs
  let d := d.onPeer fun p => { p with theirs := [] }
  list.foldl (fun d r => match find d.transport.sas r.sa, find d.front.cqs r.cq with
    | some _, some q =>
      if d.now ≥ r.firstSent + 51 * ms then
        (d.count (hpc + 0x3C)).onCq r.cq fun q => { q with peerFull := true, chain := r.entries ++ q.chain }
      else
        let m : OutMessage := {
          sa := r.sa, msgId := r.msgId, type := 4, target := q.peerCq, packets := [(0, 0, (r.entries.map fun c => c.bytes true).flatten)]
          acked := 0, tries := [0], purpose := .response r.cq }
        let key := r.sa * 2 ^ 32 + r.msgId
        let d := d.onCq r.cq fun q => { q with outstanding := r.entries, outstandingMsg := r.msgId }
        ((d.onTransport fun t => { t with sent := put t.sent key m }).onPeer fun p => { p with responses := p.responses ++ [r] }).sendWaiting key
    | _, _ => d) d

/-- TAKEOVER_DONE: every set taken has been recovered, and no firmware activation runs (R378); traffic for the sets is admitted and
the partner's unfinished work settled. -/
def execTakeoverDone (now : Nat) (s : State) : Answer := s.running fun d =>
  let d := d.clock now
  let sets := d.peer.taking
  if decide (d.peer.state ≠ .failed) || !(sets.all d.peer.taken.contains) || decide (d.trust.stage = .activating) then d else
  let gap := (now - d.peer.takeFrom) / us
  let d := d.onPeer fun p => { p with
    state := .absent, selfReady := false, last := none, taking := [], taken := [], lastGapUs := gap }
  let d := ((d.resendResponses).settleBreaths sets).settleForwarded sets
  (d.onPeer fun p => { p with slots := [] }).controlEvent 0x72 0 [b4 (setMap sets), b4 gap, b4 d.peer.takeAborted, b4 d.peer.takeRerun]

/-! ## Forwarded commands (R155) -/

/-- FORWARDED_COMPLETION: a command sent to the partner completes here with the owner's ADMIT_SEQ; the data of a READ that came with
it goes to its destination first. -/
def execForwardedCompletion (seq admitSeq status result : Nat) (list : List (Nat × Nat)) (data checks : Bytes) (now : Nat) (s : State) : Answer :=
  s.act fun d =>
    let d := d.clock now
    match find d.front.flight seq with
    | some f =>
      if f.stage ≠ .forwarded then d else
      let move := opcodeOf f.entry == 1 && byteAt f.entry 21 % 8 != 2 && !data.isEmpty
      let d := d.when move fun d => d.deliver f.entry list 0 (leAt f.entry 36 8) data checks
      ((d.completeAs seq admitSeq status result).sendForwards f.sq).settle
    | none => d

/-! ## Resynchronisation and return (R391 to R394) -/

/-- Steps 2 to 4 of R391. -/
def Dev.copyAll (d : Dev) : Dev :=
  d.stripes.sets.foldl (fun d t => match d.setImage t.1 with
    | some x => d.emit (.peer (.mirror (.set t.1 x)))
    | none => d) (d.emit (.peer (.installed d.installed)))

/-- RESYNC: the copy begins once PL carries data and the module serves. -/
def execResync (now : Nat) (s : State) : Answer := s.act fun d =>
  let d := d.clock now
  if d.peer.state = .syncing ∧ d.serving = true then (d.onPeer fun p => { p with resyncFrom := now }).copyAll else d

/-- RESYNC_RETRY: a resynchronisation that has not completed within 60 s starts again. -/
def execResyncRetry (now : Nat) (s : State) : Answer := s.act fun d =>
  let d := d.clock now
  if decide (d.peer.state ≠ .syncing) || decide (now < d.peer.resyncFrom + 60 * sec) then d else
  let n := d.peer.resyncTries + 1
  ((d.onPeer fun p => { p with resyncTries := n, resyncFrom := now }).copyAll).controlEvent 0x75 0 [b4 n]

/-- PARTNER_STANDBY_READY: the modules stand by for each other; where FAILBACK is AUTO, sets return at the next edge. [log 89: DEDUCED] -/
def execPartnerStandbyReady (now : Nat) (s : State) : Answer := s.act fun d =>
  let d := d.clock now
  if d.peer.state ≠ .syncing then d else
  ((d.onPeer fun p => { p with state := .standbyReady, selfReady := true, resyncTries := 0, returnDue := true }).controlEvent 0x73 0
    [b4 ((now - d.peer.resyncFrom) / ms)]).sendCopies

/-- FAILBACK in force: AUTO whenever TOPOLOGY is not SINGLE (R392). -/
def Dev.failbackAuto (d : Dev) : Bool := d.field 0x208 0 1 == 1 || d.field 0x210 0 2 != 0

/-- Sets whose HOME is the partner's slot returned at the first edge after PARTNER_STANDBY_READY, where FAILBACK is AUTO. [log 90: DEDUCED] -/
def Dev.returnSets (d : Dev) : Dev :=
  if !d.peer.returnDue then d else
  let home := bitmap 16 fun n => match find d.stripes.sets n with
    | some t => t.owner == d.slot && t.home != d.slot
    | none => false
  let d := d.onPeer fun p => { p with returnDue := false }
  d.when (d.failbackAuto && home != 0) fun d => d.beginHandback home

/-- HANDBACK: a write of CTL_PEER_CMD.HANDBACK, which takes effect at its edge. [log 90: DEDUCED] -/
def execHandback (client now value : Nat) (s : State) : Answer := s.act fun d =>
  ((d.clock now).plainWrite client now 0x20C 4 value).1

/-- HANDOVER: the new owner holds the set and recovers it under step 4 of R388. [log 90: DEDUCED] -/
def execHandover (set jseq now : Nat) (s : State) : Answer := s.running fun d =>
  let d := d.clock now
  match find d.peer.handbacks set, find d.peer.sets set with
  | some h, some x =>
    if !h.incoming || h.handedOver || decide (x.nextJseq < jseq) then d else
    (((d.takeSet set x).awaitRecovery set).onPeer fun p => { p with
      sets := drop p.sets set, taken := p.taken.erase set
      handbacks := put p.handbacks set { h with handedOver := true, requestedAt := now } }).driveOwner
  | _, _ => d

/-- HANDBACK_DONE: the set's recovery has ended here, and its commands run. [log 90: DEDUCED] -/
def execHandbackDone (set now : Nat) (s : State) : Answer := s.act fun d =>
  let d := d.clock now
  match find d.peer.handbacks set with
  | some h =>
    if !h.incoming || !h.handedOver || !d.peer.taken.contains set then d else
    let d := d.onPeer fun p => { p with handbacks := drop p.handbacks set, taken := p.taken.erase set }
    let d := d.front.flight.foldl (fun d f =>
      if (f.2.stage = .forwarded ∨ f.2.stage = .leaving) ∧ d.setNumber (d.forwardNs f.2) = some set then d.runHere f.1 f.2 else d) d
    d.controlEvent 0x74 set [b1 d.slot, b4 ((now - h.requestedAt) / us)]
  | none => d

end Sys2Proof.Machine
end

