-- ==== Sys2Proof/Machine/Endpoint.lean ====
section
/-! DEFINITION. The PCIe management endpoint's BAR2 windows, interrupts and link, and the delivery of events (R443, R449 to
R454, R458, R459, R482 to R484). -/

namespace Sys2Proof.Machine

open Sys2Proof RegisterMap

/-! ## BAR2 windows (R451 to R454) -/

/-- BAR0 offset of a window's registers: the shadow copy, or the active one. -/
def barWindow (active : Bool) (w : Nat) : Nat := pep + (if active then 0x2000 else 0x1000) + 0x20 * w

/-- Base and size of one copy of a window. -/
def Dev.barRange (d : Dev) (active : Bool) (w : Nat) : Nat × Nat :=
  let c := d.reg (barWindow active w)
  (bitsOf c 12 24 * 4096, 2 ^ bitsOf c 4 5)

/-- One copy of a window is valid. -/
def Dev.barValid (d : Dev) (active : Bool) (w : Nat) : Bool := bitOf (d.reg (barWindow active w)) 0

/-- The valid active window that a BAR2 offset falls in. -/
def Dev.barHit (d : Dev) (a : Nat) : Option Nat :=
  (List.range 64).find? fun w =>
    d.barValid true w && decide ((d.barRange true w).1 ≤ a) && decide (a < (d.barRange true w).1 + (d.barRange true w).2)

/-- What a request reaches: region-table index, entry, and byte of the region; `none` where it is refused (R454). -/
def Dev.barTarget (d : Dev) (r : Bar2Request) : Option (Nat × Region × Nat) :=
  match d.barHit r.addr with
  | none => none
  | some w =>
    let base := (d.barRange true w).1
    let size := (d.barRange true w).2
    let c := d.reg (barWindow true w)
    let allowed := if r.write.isSome then bitOf c 2 else bitOf c 1
    if !allowed || decide (r.addr + r.len > base + size) then none else
    match d.bufferRegion (d.reg (barWindow true w + 8)) with
    | some (i, x) => some (i, x, d.reg (barWindow true w + 16) + (r.addr - base))
    | none => none

/-- A count of the current second for PEP_ACCESS_SUMMARY: 0 bad accesses, 1 window misses, 2 timeouts. -/
def Dev.noteAccess (d : Dev) (k : Nat) : Dev :=
  d.onEndpoint fun e => { e with secondCounts := put e.secondCounts k ((find e.secondCounts k).getD 0 + 1) }

/-- A request translated once: carried out, or refused and counted. -/
def Dev.translate (d : Dev) (r : Bar2Request) : Dev :=
  match d.barTarget r with
  | some (i, x, off) => match r.write with
    | some b => d.writeRegion i off b
    | none => d.emit (.answer r.tag (some (readBytes x.mem off r.len)))
  | none =>
    let d := (d.count (pep + 0x2C)).noteAccess 1
    if r.write.isSome then d else d.emit (.answer r.tag none)

/-- Bytes of posted writes that the hold buffer takes. -/
def holdBytes : Nat := 128 * 1024

/-- Reads that the hold buffer takes. -/
def holdReads : Nat := 32

/-- The hold buffer is full for the kind of a request: flow control stalls that kind (R453). -/
def Dev.holdFull (d : Dev) (r : Bar2Request) : Bool :=
  let held := d.endpoint.heldRequests
  if r.write.isSome then
    decide ((held.filter fun x => x.write.isSome).foldl (fun n x => n + x.len) 0 ≥ holdBytes)
  else decide ((held.filter fun x => x.write.isNone).length ≥ holdReads)

/-- A request falls in a window that PEP_WIN_HOLD holds. -/
def Dev.barHeld (d : Dev) (r : Bar2Request) : Bool :=
  match d.barHit r.addr with
  | some w => bitOf (d.reg (pep + 0x18)) w
  | none => false

/-- A request arrives: it waits where its window is held or its kind is stalled, else it is translated. -/
def Dev.arrive (d : Dev) (r : Bar2Request) : Dev :=
  if d.barHeld r || d.holdFull r then d.onEndpoint fun e => { e with heldRequests := e.heldRequests ++ [r] }
  else d.translate r

/-- Requests that waited, released in arrival order under the settings and the hold in force; how many were translated. -/
def Dev.releaseHeld (d : Dev) : Dev × Nat :=
  let l := d.endpoint.heldRequests
  let d := l.foldl Dev.arrive (d.onEndpoint fun e => { e with heldRequests := [] })
  (d, l.length - d.endpoint.heldRequests.length)

/-- BAR2_TLP: a request of the host to BAR2. -/
def execBar2Tlp (r : Bar2Request) (s : State) : Answer := s.act fun d => d.arrive r

/-- The cause for which a window's shadow copy is refused at a commit of `mask`, 0 for none: 1 size, 2 alignment, 3 overlap with a
window valid after it, 4 region, 5 range (R452). [log 100: DEDUCED] -/
def Dev.commitError (d : Dev) (mask w : Nat) : Nat :=
  let log := bitsOf (d.reg (barWindow false w)) 4 5
  let base := (d.barRange false w).1
  let size := (d.barRange false w).2
  let overlaps := d.barValid false w && (List.range 64).any fun v =>
    let copy := !bitOf mask v
    v != w && d.barValid copy v && decide (base < (d.barRange copy v).1 + (d.barRange copy v).2) &&
      decide ((d.barRange copy v).1 < base + size)
  if log < 12 || log > 32 then 1
  else if base % size ≠ 0 then 2
  else if overlaps then 3
  else match d.bufferRegion (d.reg (barWindow false w + 8)) with
    | none => 4
    | some (_, x) => if d.reg (barWindow false w + 16) + size > x.length then 5 else 0

/-- The shadow copy of a window copied into its active copy. [log 100: DEDUCED] -/
def Dev.copyWindow (d : Dev) (w : Nat) : Dev :=
  [0, 8, 16].foldl (fun d off => d.setReg (barWindow true w + off) (d.reg (barWindow false w + off))) d

/-- A write of PEP_WIN_COMMIT: every window of the mask, or none (R452). [log 100: DEDUCED] -/
def Dev.commitWindows (d : Dev) (mask : Nat) : Dev :=
  let l := (List.range 64).filter (bitOf mask)
  match l.find? fun w => d.commitError mask w != 0 with
  | some w => ((d.setField (pep + 0x20) 0 1 1).setField (pep + 0x20) 1 6 w).setField (pep + 0x20) 7 3 (d.commitError mask w)
  | none => l.foldl Dev.copyWindow (d.setField (pep + 0x20) 0 10 0)

/-- A write of PEP_WIN_HOLD: the mask in force, HOLD_EXPIRED cleared, and what is no longer held released (R453). -/
def Dev.holdWindows (d : Dev) (mask : Nat) : Dev :=
  ((d.setReg (pep + 0x18) (mask % 2 ^ 64)).setField (pep + 0x20) 10 1 0).releaseHeld.1

/-- PEP_WIN_COMMIT: client 0 only (R447). [log 100: DEDUCED] -/
def execPepWinCommit (client mask : Nat) (s : State) : Answer := s.act fun d => if client = 0 then d.commitWindows mask else d

/-- PEP_WIN_HOLD: client 0 only (R447). -/
def execPepWinHold (client mask : Nat) (s : State) : Answer := s.act fun d => if client = 0 then d.holdWindows mask else d

/-- PEP_WIN_HOLD_EXPIRED: a window's hold has lasted HOLD_LIMIT_US. -/
def execPepWinHoldExpired (window : Nat) (s : State) : Answer := s.act fun d =>
  if window ≥ 64 || !bitOf (d.reg (pep + 0x18)) window then d else
  let (d, n) := (d.setField (pep + 0x18) window 1 0).releaseHeld
  (d.setField (pep + 0x20) 10 1 1).post Cls.control 0x82 window [b4 n]

/-! ## Interrupts (R450) -/

/-- Pending messages of vectors that are open are sent. [log 103: DEDUCED; log 116: DESIGN CHOICE] -/
def Dev.sendPending (d : Dev) (vectors : List Nat) : Dev :=
  if !d.busMaster then d else
  (vectors.filter fun v => d.endpoint.pendingVectors.contains v && d.endpoint.open v).foldl (fun d v =>
    (d.onEndpoint fun e => { e with pendingVectors := e.pendingVectors.filter fun x => x != v }).interrupt v) d

/-- Vectors of the MSI-X table. -/
def vectors : Nat := 2048

/-- MSIX_UNMASK: one vector, or the whole function. -/
def execMsixUnmask (vector : Option Nat) (s : State) : Answer := s.act fun d => match vector with
  | some v =>
    if v ≥ vectors then d else
    (d.onEndpoint fun e => { e with unmasked := if e.unmasked.contains v then e.unmasked else e.unmasked ++ [v] }).sendPending [v]
  | none => (d.onEndpoint fun e => { e with functionMasked := false }).sendPending d.endpoint.pendingVectors

/-- IRQ_GAP_EXPIRY: the least interval of a vector ends; a message that fell due inside it is sent. -/
def execIrqGapExpiry (vector : Nat) (s : State) : Answer := s.act fun d =>
  let due := d.endpoint.gapDue.contains vector
  let d := d.onEndpoint fun e => { e with
    gapRunning := e.gapRunning.filter fun x => x != vector
    gapDue := e.gapDue.filter fun x => x != vector }
  d.when due fun d => d.interrupt vector

/-! ## Link (R443, R458, R459) -/

/-- ENDPOINT_LINK_UP. -/
def execEndpointLinkUp (speed width : Nat) (s : State) : Answer := s.act fun d =>
  let d := (d.setField (pep + 4) 0 3 speed).setField (pep + 4) 3 5 width
  let d := d.setField (pep + 4) 16 16 (satAdd 65535 (d.field (pep + 4) 16 16) 1)
  d.post Cls.control 0x81 0 [b1 speed, b1 width]

/-- PEP_ACCESS_SUMMARY: the counts of the last second, where one is not zero. -/
def execPepAccessSummary (s : State) : Answer := s.act fun d =>
  let n (k : Nat) : Nat := (find d.endpoint.secondCounts k).getD 0
  let d' := d.onEndpoint fun e => { e with secondCounts := [] }
  if n 0 + n 1 + n 2 = 0 then d' else d'.post Cls.control 0x83 0 [b4 (n 0), b4 (n 1), b4 (n 2)]

/-! ## Delivery of events (R482 to R484) -/

/-- Up to `n` records of a history that wait for delivery, oldest first, with EVENTS_LOST ahead of them at a gap; and the number of
the record after the last of them. [log 101: DEDUCED] -/
def Dev.undelivered (d : Dev) (client n : Nat) : List EventRecord × Nat :=
  let c := d.client client
  let lost : List EventRecord := if c.lost = 0 then [] else
    [{ cls := Cls.control, code := 0xA3, unit := client, breath := d.breath, data := [b4 c.lost, b8 c.firstLost] }]
  let oldest := c.posted - c.history.length
  let start := max c.delivered oldest
  let l := (c.history.reverse.drop (start - oldest)).take (n - lost.length)
  (lost ++ l, start + l.length)

/-- Records up to a number are delivered; losses among them have been reported. [log 101: DEDUCED] -/
def EventClient.deliveredTo (c : EventClient) (upTo : Nat) : EventClient :=
  let k := min c.lost (upTo - c.firstLost)
  { c with delivered := max c.delivered upTo, lost := c.lost - k, firstLost := c.firstLost + k }

/-- Records up to a number have reached a client. -/
def Dev.deliveredTo (d : Dev) (client upTo : Nat) : Dev :=
  { d with events := put d.events client ((d.client client).deliveredTo upTo) }

/-- The management SA of a client. -/
def Dev.clientSa (d : Dev) (client : Nat) : Option Nat :=
  if client = 0 then none else (d.transport.sas.find? fun s => s.2.client == client).map Prod.fst

/-- An EVENT message of a client waits for its acknowledgement. -/
def Dev.eventsOut (d : Dev) (client : Nat) : Bool :=
  d.transport.sent.any fun m => match m.2.purpose with
    | .event c _ => c == client
    | _ => false

/-- Events of clients 1 to 3: one EVENT message of up to 256 records on the management SA. -/
def Dev.sendEvents (d : Dev) (client : Nat) : Dev :=
  match d.clientSa client with
  | none => d
  | some sa =>
    let (l, upTo) := d.undelivered client 256
    if l.isEmpty || d.eventsOut client || !d.saActive sa then d
    else (d.openMessage sa 7 0 [(0, 0, (l.map EventRecord.bytes).flatten)] (.event client upTo)).2

/-- Slots of client 0's ring that the module may write. [log 102: DEDUCED] -/
def Dev.eventRoom (d : Dev) : Nat :=
  let n := d.field 0x308 0 16
  (d.reg 0x310 + n - 1 - d.reg 0x30C % n) % n

/-- Events of client 0: records written into its ring while it has room, TAIL advanced, and one message after the batch. [log 102: DEDUCED] -/
def Dev.ringEvents (d : Dev) : Dev :=
  let (l, upTo) := d.undelivered 0 d.eventRoom
  if l.isEmpty || d.eventRoom = 0 || !bitOf (d.reg 0x308) 16 || !d.busMaster then d else
  let n := d.field 0x308 0 16
  let d := l.foldl (fun d e =>
    (d.emit (.hostWrite (d.reg 0x300 + 32 * d.reg 0x30C) e.bytes)).setReg 0x30C ((d.reg 0x30C + 1) % n)) d
  (d.deliveredTo 0 upTo).when (bitOf (d.reg 0x308) 17) fun d => d.interrupt (d.field 0x308 18 11)

/-- EVENT_DELIVERY. [log 101: DEDUCED] -/
def execEventDelivery (client now : Nat) (s : State) : Answer := s.act fun d =>
  let d := d.clock now
  if client = 0 then d.ringEvents else d.sendEvents client

/-- EVENT_REOFFER: records of a message that was given up are offered again, every 1 ms. [log 101: DEDUCED] -/
def execEventReoffer (client now : Nat) (s : State) : Answer := s.act fun d => (d.clock now).sendEvents client

/-- CTL_EVQ0_CFG.ENABLE set: the ring starts at index 0 (R483). [log 101: DEDUCED] -/
def Dev.startRing (d : Dev) : Dev := ((d.setField 0x308 16 1 1).setReg 0x30C 0).setReg 0x310 0

/-- EVQ0_ENABLE. [log 101: DEDUCED] -/
def execEvq0Enable (client : Nat) (s : State) : Answer := s.act fun d =>
  if client > 3 || bitOf (d.reg 0x308) 16 then d else d.startRing

/-- CTL_EVQ0_HEAD_WRITE: records consumed free room, and held records are written. -/
def execCtlEvq0HeadWrite (client value : Nat) (s : State) : Answer := s.act fun d =>
  if client > 3 then d else (d.setReg 0x310 (value % 65536)).ringEvents

end Sys2Proof.Machine
end

