-- ==== Sys2Proof/Machine/QueueChanges.lean ====
section
/-! DEFINITION. Checks and effects of the recorded commands on queues, security associations and reed contexts
(R74, R78, R118, R119, R149, R159, R507). -/

namespace Sys2Proof.Machine

open Sys2Proof RegisterMap

/-! ## Queues -/

/-- Entries of the BELL ring pool for I/O queues (R110). -/
def ringPool : Nat := 14680064 - 768

/-- Ring pool entries in use. -/
def Dev.ringUsed (d : Dev) : Nat :=
  d.front.sqs.foldl (fun n q => if q.2.place = .bell && !isMouthpiece q.1 then n + q.2.entries else n) 0

/-- A queue number of an I/O queue. -/
def queueId (n : Nat) : Bool := decide (1 ≤ n) && decide (n ≤ 16384)

/-- A submission queue that exists and is not being deleted. -/
def Dev.liveSq (d : Dev) (n : Nat) : Option Sq := match find d.front.sqs n with
  | some q => if queueId n && q.deleting.isNone then some q else none
  | none => none

/-- A completion queue that exists. -/
def Dev.liveCq (d : Dev) (n : Nat) : Option Cq := if queueId n then find d.front.cqs n else none

/-- The ARBITRATION field of an entry (R149). -/
def arbitrationOf (e : Bytes) : Arbitration := {
  w0 := byteAt e 32, w1 := byteAt e 33, w2 := byteAt e 34, w3 := byteAt e 35, share := byteAt e 36, urgentEn := bitOf (byteAt e 37) 0
  urgentBudget := leAt e 38 4 }

/-- Field tests of MAX_INFLIGHT and ARBITRATION. -/
def arbitrationFields (e : Bytes) : List (Nat × Bool) :=
  [(28, decide (leAt e 28 4 ≤ 65536)), (32, byteAt e 32 != 0), (33, byteAt e 33 != 0), (34, byteAt e 34 != 0), (35, byteAt e 35 != 0),
    (36, byteAt e 36 != 0),
    (38, !bitOf (byteAt e 37) 0 || (decide (1 ≤ leAt e 38 4) && decide (leAt e 38 4 ≤ 65536)))]

/-- Checks of CQ_CREATE. [log 44: DEDUCED] -/
def checkCqCreate (r : Rec) (d : Dev) : Verdict :=
  let e := r.entry
  let n := leAt e 8 2
  let host := byteAt e 10 == 0
  let sa := leAt e 24 2
  fields [(8, queueId n && (find d.front.cqs n).isNone), (10, byteAt e 10 == 0 || byteAt e 10 == 2),
    (12, decide (2 ≤ leAt e 12 4) && decide (leAt e 12 4 ≤ 65536)),
    (16, if host then leAt e 16 8 % 4096 == 0 else leAt e 16 8 == 0),
    (24, if host then sa == 0 else (find d.transport.sas sa).isSome),
    (32, decide (leAt e 32 4 ≤ 60000)), (36, !host || decide (leAt e 36 2 < 2048))]

/-- Effect of CQ_CREATE. [log 44: DEDUCED] -/
def applyCqCreate (r : Rec) (d : Dev) : Dev × Nat :=
  let e := r.entry
  let q : Cq := {
    place := if byteAt e 10 = 0 then .host else .peer, entries := leAt e 12 4, addr := leAt e 16 8, sa := leAt e 24 2, peerCq := leAt e 28 4
    stallMs := leAt e 32 4, vector := leAt e 36 2, irqEn := bitOf (byteAt e 38) 0, client := r.client }
  ((d.onFront fun f => { f with cqs := put f.cqs (leAt e 8 2) q }).scanCq (leAt e 8 2), 0)

/-- Checks of SQ_CREATE. -/
def checkSqCreate (r : Rec) (d : Dev) : Verdict :=
  let e := r.entry
  let n := leAt e 8 2
  let host := byteAt e 10 == 0
  let cqOk := match d.liveCq (leAt e 24 2) with
    | some q => !q.fenced
    | none => false
  (fields ([(8, queueId n && (find d.front.sqs n).isNone), (10, decide (byteAt e 10 ≤ 1)),
    (12, decide (2 ≤ leAt e 12 4) && decide (leAt e 12 4 ≤ 65536)),
    (16, if host then leAt e 16 8 % 4096 == 0 else leAt e 16 8 == 0), (24, cqOk)] ++ arbitrationFields e)).andThen
  (require (host || decide (d.ringUsed + leAt e 12 4 ≤ ringPool)) Status.admissionRefused 0)

/-- Effect of SQ_CREATE; URGENT_LEFT starts full (R151). -/
def applySqCreate (r : Rec) (d : Dev) : Dev × Nat :=
  let e := r.entry
  let arb := arbitrationOf e
  let most := leAt e 28 4
  let q : Sq := {
    place := if byteAt e 10 = 0 then .host else .bell, entries := leAt e 12 4, addr := leAt e 16 8, cq := leAt e 24 2
    pollInterval := leAt e 26 2, maxInflight := if most = 0 then leAt e 12 4 else most, client := r.client, arb := arb
    urgentLeft := arb.urgentBudget, shareLeft := arb.share, left0 := arb.w0, left1 := arb.w1, left2 := arb.w2, left3 := arb.w3 }
  (d.onFront fun f => { f with sqs := put f.sqs (leAt e 8 2) q }, 0)

/-- Checks of SQ_MODIFY. -/
def checkSqModify (r : Rec) (d : Dev) : Verdict :=
  fields ((8, (d.liveSq (leAt r.entry 8 2)).isSome) :: arbitrationFields r.entry)

/-- Effect of SQ_MODIFY; counts in progress carry over (R149). -/
def applySqModify (r : Rec) (d : Dev) : Dev × Nat :=
  let e := r.entry
  let most := leAt e 28 4
  (d.onSq (leAt e 8 2) fun q => { q with
    pollInterval := leAt e 26 2, maxInflight := if most = 0 then q.entries else most, arb := arbitrationOf e }, 0)

/-- Checks of SQ_DELETE. [log 44: DEDUCED] -/
def checkSqDelete (r : Rec) (d : Dev) : Verdict :=
  fields [(8, (d.liveSq (leAt r.entry 8 2)).isSome), (10, byteAt r.entry 10 == 0)]

/-- A reed context of kind QUEUE names a submission queue. -/
def Dev.reedOnQueue (d : Dev) (n : Nat) : Bool := d.transport.reeds.any fun r => decide (r.2.kind = .queue) && r.2.target == n

/-- Check of SQ_DELETE at commit. [log 44: DEDUCED] -/
def commitSqDelete (r : Rec) (d : Dev) : Verdict :=
  let n := leAt r.entry 8 2
  fields [(8, match find d.front.sqs n with
    | some q => q.place != .bell || !d.reedOnQueue n
    | none => true)]

/-- Effect of SQ_DELETE: fetching stops and unfetched entries are discarded; it completes with the last command in flight. -/
def applySqDelete (r : Rec) (d : Dev) : Dev × Nat :=
  (d.onSq (leAt r.entry 8 2) fun q => { q with deleting := some r.seq, waiting := [], taken := [], reading := false }, 0)

/-- Checks of CQ_DELETE. -/
def checkCqDelete (r : Rec) (d : Dev) : Verdict :=
  fields [(8, (d.liveCq (leAt r.entry 8 2)).isSome), (10, byteAt r.entry 10 == 0)]

/-- Check of CQ_DELETE at commit. -/
def commitCqDelete (r : Rec) (d : Dev) : Verdict :=
  let n := leAt r.entry 8 2
  fields [(8, !(d.front.sqs.any fun q => q.2.cq == n && q.2.deleting.isNone) &&
    !(d.memory.windows.any fun w => w.2.cq == n && decide (w.2.mode ≠ .disarmed)) &&
    match find d.front.cqs n with
    | some q => q.chain.isEmpty
    | none => true)]

/-- Effect of CQ_DELETE: its record is discarded. -/
def applyCqDelete (r : Rec) (d : Dev) : Dev × Nat :=
  (((d.dropScans (leAt r.entry 8 2)).onFront fun f => { f with cqs := drop f.cqs (leAt r.entry 8 2) }).recordFreed, 0)

/-- Checks of QUEUE_RESET. -/
def checkQueueReset (r : Rec) (d : Dev) : Verdict :=
  let n := leAt r.entry 8 2
  let ring := byteAt r.entry 10
  fields [(8, if ring = 1 then (d.liveCq n).isSome else (d.liveSq n).isSome), (10, decide (ring ≤ 1))]

/-- Effect of QUEUE_RESET: a fence ends, and what waits in a CQ's chain goes on into its ring. [log 37: DEDUCED] -/
def applyQueueReset (r : Rec) (d : Dev) : Dev × Nat :=
  let n := leAt r.entry 8 2
  if byteAt r.entry 10 = 0 then
    ((d.dropPolls n).onSq n fun q => { q with fenced := false, head := 0, waiting := [], taken := [], reading := false }, 0)
  else
    ((((d.dropScans n).onCq n fun q => { q with
      fenced := false, record := [], tail := 0, free := 0, peerFull := false }).recordFreed).drainChain n, 0)

/-- SQ_DELETE_DONE: no command of a deleted queue is left in flight; its SQ_DELETE completes and the number is free. [log 44: DEDUCED] -/
def execSqDeleteDone (sq : Nat) (s : State) : Answer := s.act fun d =>
  match find d.front.sqs sq with
  | some q => match q.deleting with
    | some seq =>
      if d.front.flight.any fun f => f.2.sq == sq then d else
      (d.onFront fun f => { f with sqs := drop f.sqs sq }).complete seq Status.ok 0
    | none => d
  | none => d

/-! ## Security associations (R78, R159) -/

/-- Full bucket of a policer with a BURST in KiB, in millionths of a bit. [log 51: DEDUCED] -/
def bucketOf (kib : Nat) : Nat := kib * 1024 * 8 * 1000000

/-- Some SA other than one serves a control client. -/
def Dev.served (d : Dev) (client : Nat) : Bool := d.transport.sas.any fun s => s.2.client == client

/-- Checks of SA_CREATE. -/
def checkSaCreate (r : Rec) (d : Dev) : Verdict :=
  let i := leAt r.entry 8 2
  let p := r.payload
  let police := bitOf (byteAt p 53) 0
  let client := byteAt p 52
  (fields [(8, decide (i ≤ 16383) && (find d.transport.sas i).isNone)]).andThen
  (descriptorFields [(52, decide (client ≤ 3) && (client == 0 || !d.served client)), (53, decide (byteAt p 53 < 2)), (54, zeroRange p 54 55),
    (56, !police || (decide (1 ≤ leAt p 56 4) && decide (leAt p 56 4 ≤ 400000))),
    (60, !police || (decide (1 ≤ leAt p 60 4) && decide (leAt p 60 4 ≤ 65535)))])

/-- Effect of SA_CREATE: the SA enters ENROLLED. -/
def applySaCreate (r : Rec) (d : Dev) : Dev × Nat :=
  let p := r.payload
  let s : Sa := {
    endpoint := leAt p 0 4, addr := beNat (slice p 4 16), secret := slice p 20 32, client := byteAt p 52, police := bitOf (byteAt p 53) 0
    rate := leAt p 56 4, burst := leAt p 60 4, bucket := bucketOf (leAt p 60 4), filledAt := d.now }
  (d.onTransport fun t => { t with sas := put t.sas (leAt r.entry 8 2) s }, 0)

/-- Checks of SA_DELETE. -/
def checkSaDelete (r : Rec) (d : Dev) : Verdict := fields [(8, (find d.transport.sas (leAt r.entry 8 2)).isSome)]

/-- Check of SA_DELETE at commit: no reed context or PEER CQ names it, and its client has nothing in flight and no transaction
open, but for the deleting transaction's own. [log 109: DEDUCED] -/
def commitSaDelete (r : Rec) (d : Dev) : Verdict :=
  let i := leAt r.entry 8 2
  let client := ((find d.transport.sas i).map Sa.client).getD 0
  let busy := d.front.flight.any fun f =>
    f.2.sq == mouthpiece client && !(r.client == client && (decide (f.2.stage = .recorded) || byteAt f.2.entry 0 == 0x41))
  fields [(8, !(d.transport.reeds.any fun x => x.2.sa == i) &&
    !(d.front.cqs.any fun q => decide (q.2.place = .peer) && q.2.sa == i && !isMouthpiece q.1) &&
    (client == 0 || (!busy && (find d.control.txns client).isNone)))]

/-- Effect of SA_DELETE: the SA is FREE, its keys are gone and its client's mouthpiece queues with it. [log 109: DEDUCED] -/
def applySaDelete (r : Rec) (d : Dev) : Dev × Nat :=
  let i := leAt r.entry 8 2
  let client := ((find d.transport.sas i).map Sa.client).getD 0
  let d := d.onTransport fun t => { t with
    sas := drop t.sas i, replay := t.replay.filter fun e => e.sa != i, saCache := t.saCache.erase i
    fetching := t.fetching.filter fun w => w.sa != i, sent := t.sent.filter fun m => m.2.sa != i
    requests := t.requests.filter fun m => m.2.sa != i }
  let d := d.onSwitch fun x => { x with nodes := drop x.nodes i }
  (d.when (client != 0) fun d => d.onFront fun f =>
    { f with sqs := drop f.sqs (mouthpiece client), cqs := drop f.cqs (mouthpiece client) }, 0)

/-! ## Reed contexts (R74, R159) -/

/-- Key of a reed context: SA, and queue number or region-table index. -/
def reedKey (sa : Nat) (queue : Bool) (n : Nat) : Nat := sa * 2 ^ 18 + (if queue then n else 2 ^ 17 + n)

/-- A region held under a key: its index and entry, where the key is current. -/
def Dev.heldRegion (d : Dev) (key : Nat) : Option (Nat × Region) :=
  let i := key / 256
  match find d.memory.regions i with
  | some r => if i ≠ 0 && decide (r.life = .held) && r.gen == key % 256 then some (i, r) else none
  | none => none

/-- The reed context of an SA that names a target of a kind: queue, region key or window number. -/
def Dev.reedFor (d : Dev) (sa kind target : Nat) : Option (Nat × Reed) :=
  d.transport.reeds.find? fun r => r.2.sa == sa && (match kind with
    | 0 => decide (r.2.kind = .queue) && r.2.target == target
    | 1 => decide (r.2.kind = .region) && r.2.index == target / 256
    | 2 => decide (r.2.kind = .window) && r.2.target == target
    | _ => false)

/-- The target that an RCTX_CREATE names: region-table index, and its rights; `none` where it does not exist. -/
def Dev.reedTarget (d : Dev) (sa kind target : Nat) : Option (Nat × Bool × Bool) :=
  match kind with
  | 0 => match d.liveSq target with
    | some q => match find d.front.cqs q.cq with
      | some c => if q.place = .bell && c.place = .peer && c.sa == sa then some (0, false, false) else none
      | none => none
    | none => none
  | 1 => (d.bufferRegion target).map fun r => (r.1, r.2.mayWrite, r.2.mayRead)
  | 2 => if target ≤ 1023 then (find d.memory.windows target).map fun w => (w.region, true, false) else none
  | _ => none

/-- RIGHTS fits the kind and the target. -/
def rightsOk (kind rights : Nat) (target : Option (Nat × Bool × Bool)) : Bool := match kind with
  | 0 => rights == 4
  | 1 => rights != 0 && rights < 4 && (match target with
    | some (_, w, r) => (!bitOf rights 0 || w) && (!bitOf rights 1 || r)
    | none => true)
  | _ => rights == 1

/-- Test 4 of R132 on a key that names a buffer region. [log 120: DEDUCED] -/
def Dev.bufferKey (d : Dev) (key : Nat) : Verdict :=
  match find d.memory.regions (key / 256) with
  | some r =>
    if key / 256 = 0 ∨ key / 256 > 65535 ∨ r.kind ≠ .buffer then some (Status.accessDenied, 0)
    else if r.gen ≠ key % 256 ∨ r.life ≠ .held then some (Status.regionRevoked, d.currentKey (key / 256))
    else none
  | none => some (Status.accessDenied, 0)

/-- Checks of RCTX_CREATE. [log 45: DESIGN CHOICE; log 120: DEDUCED] -/
def checkRctxCreate (r : Rec) (d : Dev) : Verdict :=
  let e := r.entry
  let sa := leAt e 8 2
  let kind := byteAt e 10
  let target := leAt e 12 4
  let t := d.reedTarget sa kind target
  (fields [(8, (find d.transport.sas sa).isSome), (10, decide (kind ≤ 2)), (11, rightsOk kind (byteAt e 11) t),
    (12, (kind == 1 || t.isSome) && (d.reedFor sa kind target).isNone)]).andThen <|
  (if kind = 1 then d.bufferKey target else none).andThen
  (require (decide (d.transport.reeds.length < 1048576)) Status.admissionRefused 0)

/-- Effect of RCTX_CREATE. [log 45: DESIGN CHOICE] -/
def applyRctxCreate (r : Rec) (d : Dev) : Dev × Nat :=
  let e := r.entry
  let sa := leAt e 8 2
  let kind := byteAt e 10
  let target := leAt e 12 4
  match d.reedTarget sa kind target with
  | none => (d, 0)
  | some (index, _, _) =>
    let x : Reed := {
      sa := sa, kind := if kind = 0 then .queue else if kind = 1 then .region else .window, target := target, index := index
      mayWrite := bitOf (byteAt e 11) 0, mayRead := bitOf (byteAt e 11) 1, maySubmit := bitOf (byteAt e 11) 2
      cq := ((find d.front.sqs target).map Sq.cq).getD 0 }
    (d.onTransport fun t => { t with reeds := put t.reeds (reedKey sa (kind == 0) (if kind = 0 then target else index)) x }, 0)

/-- Checks of RCTX_DELETE. [log 44: DEDUCED] -/
def checkRctxDelete (r : Rec) (d : Dev) : Verdict :=
  let e := r.entry
  fields [(8, (find d.transport.sas (leAt e 8 2)).isSome), (10, decide (byteAt e 10 ≤ 2)),
    (12, (d.reedFor (leAt e 8 2) (byteAt e 10) (leAt e 12 4)).isSome)]

/-- Effect of RCTX_DELETE. [log 44: DEDUCED] -/
def applyRctxDelete (r : Rec) (d : Dev) : Dev × Nat :=
  let e := r.entry
  match d.reedFor (leAt e 8 2) (byteAt e 10) (leAt e 12 4) with
  | some (k, _) => (d.onTransport fun t => { t with reeds := drop t.reeds k, reedCache := t.reedCache.erase k }, 0)
  | none => (d, 0)

end Sys2Proof.Machine
end

