-- ==== Sys2Proof/Machine/WindowChanges.lean ====
section
/-! DEFINITION. Checks and effects of the recorded commands on regions, capture windows, programs and keys
(R87 to R90, R94, R95, R105, R159, R179 to R185, R237 to R241, R250). -/

namespace Sys2Proof.Machine

open Sys2Proof RegisterMap

/-! ## Regions (R88 to R90, R94) -/

/-- An index is eligible, and the memory of a new region fits the limit. -/
def Dev.regionFits (d : Dev) (bytes : Nat) : Verdict :=
  require (d.nextIndex.isSome && decide (d.regionBytes + bytes ≤ regionLimit)) Status.admissionRefused 0

/-- Checks of REGION_REGISTER. -/
def checkRegionRegister (r : Rec) (d : Dev) : Verdict :=
  let len := leAt r.payload 0 8
  (descriptorFields [(0, len % 4096 == 0 && decide (4096 ≤ len) && decide (len ≤ 2 ^ 32)), (8, decide (byteAt r.payload 8 < 4)),
    (9, zeroRange r.payload 9 63)]).andThen (d.regionFits len)

/-- Effect of REGION_REGISTER: a region of zeros, and its key as RESULT. -/
def applyRegionRegister (r : Rec) (d : Dev) : Dev × Nat :=
  let len := leAt r.payload 0 8
  let rights := byteAt r.payload 8
  match d.issueRegion .buffer len len (bitOf rights 0) (bitOf rights 1) r.client with
  | some (key, d) => (d, key)
  | none => (d, 0)

/-- Checks of REGION_REVOKE. -/
def checkRegionRevoke (r : Rec) (d : Dev) : Verdict := fields [(8, (d.heldRegion (leAt r.entry 8 4)).isSome)]

/-- A window is ARMED or DRAINING. -/
def Window.live (w : Window) : Bool := match w.mode with
  | .armed | .draining => true
  | _ => false

/-- Check of REGION_REVOKE at commit (R95). [log 61: DEDUCED] -/
def commitRegionRevoke (r : Rec) (d : Dev) : Verdict :=
  fields [(8, match d.heldRegion (leAt r.entry 8 4) with
    | some (_, x) => (match x.kind with
      | .window w => !((find d.memory.windows w).map Window.live).getD false
      | .buffer => true)
    | none => true)]

/-- Effect of REGION_REVOKE: step 1 of R94; it completes when its drain has ended. [log 61: DEDUCED] -/
def applyRegionRevoke (r : Rec) (d : Dev) : Dev × Nat := (d.revoke (leAt r.entry 8 4 / 256) (some r.seq), 0)

/-! ## Capture windows (R95, R105) -/

/-- Kinds a program of a window needs: 1, and 2 with DEADLINE = 0 (R183). -/
def windowKinds (deadline : Nat) : Nat := if deadline = 0 then 6 else 2

/-- A program exists and allows some kinds; 0 stands for the library program of the target. -/
def Dev.bindable (d : Dev) (prog kinds : Nat) : Bool :=
  prog == 0 || (match d.program prog with
    | some p => Nat.land p.kinds kinds == kinds
    | none => false)

/-- Bytes of the slots of a window. -/
def slotBytes (slots blocks : Nat) : Nat := slots * blocks * 4112

/-- Checks of WINDOW_CREATE. -/
def checkWindowCreate (r : Rec) (d : Dev) : Verdict :=
  let p := r.payload
  let n := leAt r.entry 8 2
  let blocks := leAt p 24 4
  let slots := byteAt p 28
  let size := ((find d.stripes.namespaces (leAt p 0 4)).map Namespace.size).getD 0
  (fields [(8, decide (n ≤ 1023) && (find d.memory.windows n).isNone)]).andThen <|
  (descriptorFields [
    (0, decide (1 ≤ leAt p 0 4) && decide (leAt p 0 4 ≤ 4096) && (find d.stripes.namespaces (leAt p 0 4)).isSome), (4, zeroRange p 4 7),
    (16, leAt p 16 8 != 0), (24, decide (1 ≤ blocks) && decide (blocks ≤ 262144)), (28, decide (2 ≤ slots) && decide (slots ≤ 64)),
    (29, byteAt p 29 == 0), (30, decide (leAt p 30 2 ≤ 4095)), (32, (d.liveCq (leAt p 32 4)).isSome), (38, decide (byteAt p 38 < 64)),
    (39, byteAt p 39 == 0), (40, coderOk (leAt p 40 4)), (44, d.bindable (leAt p 44 4) (windowKinds (leAt p 30 2))),
    (52, zeroRange p 52 63)]).andThen <|
  (require (decide (leAt p 8 8 + leAt p 16 8 * blocks ≤ size)) Status.outOfRange size).andThen <|
  d.regionFits (slotBytes slots blocks)

/-- Effect of WINDOW_CREATE: a DISARMED window with its region and its binding; RESULT is the region's key. -/
def applyWindowCreate (r : Rec) (d : Dev) : Dev × Nat :=
  let p := r.payload
  let n := leAt r.entry 8 2
  let blocks := leAt p 24 4
  let slots := byteAt p 28
  let bytes := slotBytes slots blocks
  match d.issueRegion (.window n) bytes bytes true false r.client with
  | none => (d, 0)
  | some (key, d) =>
    let on (k : Nat) : Bool := bitOf (byteAt p 38) k
    let w : Window := {
      nsid := leAt p 0 4, baseLba := leAt p 8 8, rangeBreaths := leAt p 16 8, slotBlocks := blocks, slots := slots, deadline := leAt p 30 2
      cq := leAt p 32 4, appTag := leAt p 36 2, wrap := on 0, checkCarried := on 1, replPartner := on 2, replDownstream := on 3, quiet := on 4
      overrideExposed := on 5, coder := leAt p 40 4, program := leAt p 44 4, downstreamKey := leAt p 48 4, region := key / 256
      client := r.client }
    let b : Binding := { prog := leAt p 44 4, limit := 256, param := zeros 32 }
    ((d.onMemory fun m => { m with windows := put m.windows n w }).onChanters fun c =>
      { c with bindings := if b.prog = 0 then drop c.bindings (windowBinding n) else put c.bindings (windowBinding n) b }, key)

/-- The window that a WINDOW_ command names. -/
def Rec.window (r : Rec) (d : Dev) : Option Window :=
  if leAt r.entry 8 2 ≤ 1023 then find d.memory.windows (leAt r.entry 8 2) else none

/-- Checks of WINDOW_ARM, WINDOW_DISARM and WINDOW_DELETE: the window exists. -/
def checkWindowNamed (r : Rec) (d : Dev) : Verdict := fields [(8, (r.window d).isSome)]

/-- Set of a namespace. -/
def Dev.setOfNs (d : Dev) (nsid : Nat) : Option (Nat × StripeSet) :=
  (find d.stripes.namespaces nsid).bind fun n => (find d.stripes.sets n.set).map fun t => (n.set, t)

/-- Check of WINDOW_ARM at commit (R105). -/
def commitWindowArm (r : Rec) (d : Dev) : Verdict := match r.window d with
  | none => none
  | some w => (fields [(8, decide (w.mode = .disarmed))]).andThen <| match d.setOfNs w.nsid with
    | some (n, t) => require (!(decide (t.state = .exposed) && !w.overrideExposed) && t.redundancy != 0) Status.setExposed n
    | none => none

/-- Effect of WINDOW_ARM: FIRST_BREATH is the breath that the edge begins. -/
def applyWindowArm (r : Rec) (d : Dev) : Dev × Nat :=
  let n := leAt r.entry 8 2
  ((d.onWindow n fun w => { w with mode := .armed, firstBreath := d.breath, everArmed := true, ring := [], breaths := [] }).windowEvent n 0x20
    [b8 d.breath], 0)

/-- Effect of WINDOW_DISARM: an ARMED window drains from the edge on. [log 126: DEDUCED] -/
def applyWindowDisarm (r : Rec) (d : Dev) : Dev × Nat :=
  let n := leAt r.entry 8 2
  (match r.window d with
    | some w => if w.mode = .armed then d.drainWindow n d.breath else d
    | none => d, 0)

/-- Check of WINDOW_DELETE at commit. -/
def commitWindowDelete (r : Rec) (d : Dev) : Verdict := fields [(8, match r.window d with
  | some w => !w.live
  | none => true)]

/-- Effect of WINDOW_DELETE: breaths still in flight complete with UNIT_FENCED, the key is revoked and the window is gone. [log 62: DEDUCED] -/
def applyWindowDelete (r : Rec) (d : Dev) : Dev × Nat :=
  let n := leAt r.entry 8 2
  match r.window d with
  | none => (d, 0)
  | some w =>
    let d := w.breaths.foldl (fun (d : Dev) b => d.endBreath n b.1 Status.unitFenced) d
    let d := if (find d.memory.regions w.region).any fun x => decide (x.life = .held) then d.revoke w.region none else d
    let d := d.onSwitch fun x => { x with landing := x.landing.filter fun p => match p.place with
      | .slot k _ => k != n
      | _ => true }
    ((d.onMemory fun m => { m with windows := drop m.windows n }).onChanters fun c => { c with bindings := drop c.bindings (windowBinding n) }, 0)

/-! ## Programs (R179 to R185) -/

/-- Programs of the library. -/
def libraryPrograms : List Nat := [1, 2, 3, 0x10]

/-- Programs held, library included. -/
def Dev.programsHeld (d : Dev) : Nat := libraryPrograms.length + d.chanters.programs.length

/-- Code words in use, library included. -/
def Dev.codeWords (d : Dev) : Nat :=
  libraryPrograms.foldl (fun n p => n + (Config.libraryCode d.library p).length) 0 + d.chanters.programs.foldl (fun n p => n + p.2.code.length) 0

/-- A PROG_ID of a loadable program. -/
def loadable (prog : Nat) : Bool := decide (0x1000 ≤ prog) && decide (prog < 2 ^ 32)

/-- KINDS of an image: kinds 0 and 1 not both, and kind 2 only with kind 1; 0 allows no activation and is rejected. [log 107: DEDUCED] -/
def kindsOk (k : Nat) : Bool := k == 1 || k == 2 || k == 6

/-- Field tests of a PROGRAM_LOAD's entry: DLEN holds a header and 1 to 16,384 words. -/
def programLength (dlen : Nat) : Bool := dlen % 4 == 0 && decide (68 ≤ dlen) && decide (dlen ≤ 64 + 4 * 16384)

/-- The words of an image. -/
def imageWords (p : Bytes) (n : Nat) : List Nat := (List.range n).map fun i => leAt p (64 + 4 * i) 4

/-- The first word of an image that R182 refuses: its index. -/
def badWord (kinds n : Nat) (p : Bytes) : Option Nat :=
  (((List.range n).zip (imageWords p n)).find? fun w => !Gullot.wordOk kinds n w.1 w.2).map Prod.fst

/-- The verdict of R182 on an image's words. -/
def wordVerdict (kinds n : Nat) (p : Bytes) : Verdict := (badWord kinds n p).map fun i => (Status.invalidField, inDescriptor (64 + 4 * i))

/-- Checks of PROGRAM_LOAD. [log 107: DEDUCED] -/
def checkProgramLoad (r : Rec) (d : Dev) : Verdict :=
  let p := r.payload
  let prog := leAt r.entry 8 4
  let n := leAt p 16 4
  let kinds := byteAt p 28 % 8
  (fields [(8, loadable prog)]).andThen <|
  (descriptorFields [(0, leAt p 0 4 == 0x5A48494D), (4, leAt p 4 2 == 1), (6, zeroRange p 6 7), (8, leAt p 8 4 == prog),
    (16, decide (1 ≤ n) && decide (n ≤ 16384) && 64 + 4 * n == leAt r.entry 16 4), (20, decide (leAt p 20 4 < n)),
    (24, leAt p 24 4 % 8 == 0 && decide (leAt p 24 4 ≤ 16384)), (28, decide (byteAt p 28 < 8) && kindsOk kinds), (29, zeroRange p 29 63)]).andThen <|
  (wordVerdict kinds n p).andThen <|
  let old := ((find d.chanters.programs prog).map fun x => x.code.length).getD 0
  require ((decide (d.programsHeld < 1024) || (find d.chanters.programs prog).isSome) && decide (d.codeWords - old + n ≤ 1048576))
    Status.admissionRefused 0

/-- Effect of PROGRAM_LOAD; M7 is extended with the image (R367). -/
def applyProgramLoad (r : Rec) (d : Dev) : Dev × Nat :=
  let p := r.payload
  let x : Program := {
    version := leAt p 12 4, entry := leAt p 20 4, scratch := leAt p 24 4, kinds := byteAt p 28 % 8
    code := (imageWords p (leAt p 16 4)).map (BitVec.ofNat 32) }
  let prog := leAt r.entry 8 4
  ((d.onChanters fun c => { c with programs := put c.programs prog x }).extend 7 1 (prog + x.version * 2 ^ 32)
    (digest64 p), 0)

/-- Checks of PROGRAM_BIND. -/
def checkProgramBind (r : Rec) (d : Dev) : Verdict :=
  let e := r.entry
  let prog := leAt e 8 4
  let kind := byteAt e 12
  let op := byteAt e 13
  let win := leAt e 14 2
  let limit := leAt e 16 4
  let need := if kind = 0 then 1 else windowKinds (((find d.memory.windows win).map Window.deadline).getD 0)
  fields [(4, kind != 0 || (find d.stripes.namespaces (leAt e 4 4)).isSome), (8, d.bindable prog need), (12, decide (kind ≤ 1)),
    (13, if kind = 0 then decide (1 ≤ op) && decide (op ≤ 3) else op == 0),
    (14, if kind = 0 then win == 0 else decide (win ≤ 1023) && (find d.memory.windows win).isSome),
    (16, decide (1 ≤ limit) && decide (limit ≤ 65535))]

/-- Effect of PROGRAM_BIND; it clears the fence that a fault left on the namespace (R177). -/
def applyProgramBind (r : Rec) (d : Dev) : Dev × Nat :=
  let e := r.entry
  let key := if byteAt e 12 = 0 then commandBinding (leAt e 4 4) (byteAt e 13) else windowBinding (leAt e 14 2)
  let b : Binding := { prog := leAt e 8 4, limit := leAt e 16 4, param := slice e 24 32 }
  let d := d.onChanters fun c => { c with bindings := put c.bindings key b }
  (d.when (byteAt e 12 == 0) fun d => d.onNs (leAt e 4 4) fun n => { n with fences := n.fences.filter fun f => f != NsFence.program }, 0)

/-- Checks of PROGRAM_UNLOAD. -/
def checkProgramUnload (r : Rec) (d : Dev) : Verdict :=
  let prog := leAt r.entry 8 4
  fields [(8, loadable prog && (find d.chanters.programs prog).isSome)]

/-- Check of PROGRAM_UNLOAD at commit: no target is bound to the program. -/
def commitProgramUnload (r : Rec) (d : Dev) : Verdict := fields [(8, d.chanters.bindings.all fun b => b.2.prog != leAt r.entry 8 4)]

/-- Effect of PROGRAM_UNLOAD; M7 is extended with the PROG_ID (R367). -/
def applyProgramUnload (r : Rec) (d : Dev) : Dev × Nat :=
  let prog := leAt r.entry 8 4
  let version := ((find d.chanters.programs prog).map Program.version).getD 0
  ((d.onChanters fun c => { c with programs := drop c.programs prog }).extend 7 2 (prog + version * 2 ^ 32) (digest64 (leBytes 4 prog)), 0)

/-! ## Keys (R237 to R241, R250) -/

/-- Key check value (R241). -/
def kcv (key : Bytes) : Nat := leNat (shake256 (ascii "DZ KCV" ++ key) 8)

/-- A LIVE key-encryption key. -/
def Dev.liveKek (d : Dev) (k : Nat) : Option Bytes := match find d.cipher.keys k with
  | some e => if e.type = 1 ∧ e.life = .live then some e.key else none
  | none => none

/-- The key that a KEY_INSTALL unwraps to. -/
def Dev.unwrapped (d : Dev) (r : Rec) : Option Bytes :=
  if byteAt r.entry 11 = 0 then (d.liveKek (leAt r.entry 12 2)).bind fun k => KeyWrap.unwrap k r.payload
  else (Config.decapsulate (r.payload.take 1568)).bind fun ss =>
    KeyWrap.unwrap (shake256 (ss ++ ascii "DZ KEY INSTALL") 32) (r.payload.drop 1568)

/-- Bytes of a key of a TYPE. -/
def keyBytes (type : Nat) : Nat := if type = 1 then 32 else 64

/-- DLEN of a KEY_INSTALL. -/
def installLength (type form : Nat) : Nat := (if form = 0 then 0 else 1568) + keyBytes type + 8

/-- Field tests of a KEY_INSTALL's entry. -/
def keyInstallFields (e : Bytes) (d : Dev) : List (Nat × Bool) :=
  let id := leAt e 8 2
  let type := byteAt e 10
  [(8, (if type = 1 then decide (1 ≤ id) && decide (id ≤ 63) else decide (64 ≤ id) && decide (id ≤ 8191)) && (find d.cipher.keys id).isNone),
    (10, type == 1 || type == 2), (11, decide (byteAt e 11 ≤ 1)),
    (12, if byteAt e 11 = 0 then (d.liveKek (leAt e 12 2)).isSome else leAt e 12 2 == 0)]

/-- Checks of KEY_INSTALL. -/
def checkKeyInstall (r : Rec) (d : Dev) : Verdict :=
  (fields (keyInstallFields r.entry d)).andThen <|
  (require (byteAt r.entry 11 == 0 || !d.cipher.stopped) Status.admissionRefused 0).andThen <|
  match d.unwrapped r with
  | none => some (Status.accessDenied, 0)
  | some k =>
    if k.length ≠ keyBytes (byteAt r.entry 10) then some (Status.accessDenied, 0)
    else if byteAt r.entry 10 = 2 ∧ k.take 32 = k.drop 32 then some (Status.invalidField, 24) else none

/-- Effect of KEY_INSTALL: the entry is LIVE; RESULT is its key check value. -/
def applyKeyInstall (r : Rec) (d : Dev) : Dev × Nat :=
  let id := leAt r.entry 8 2
  match d.unwrapped r with
  | none => (d, 0)
  | some k =>
    let x : KeyEntry := { type := byteAt r.entry 10, key := k, life := .live }
    let d := (d.leaveTest).onCipher fun c => { c with keys := put c.keys id x }
    (d.post Cls.security 0x10 id [b1 x.type, b8 (kcv k)], kcv k)

/-- Checks of KEY_DESTROY: the key is LIVE (R239, R493). -/
def checkKeyDestroy (r : Rec) (d : Dev) : Verdict := fields [(8, match find d.cipher.keys (leAt r.entry 8 2) with
  | some e => decide (e.life = .live)
  | none => false)]

/-- Namespaces that name a key. -/
def Dev.namespacesOfKey (d : Dev) (k : Nat) : List Nat :=
  d.stripes.namespaces.filterMap fun n => if n.2.keyId = k then some n.1 else none

/-- Check of KEY_DESTROY at commit (R239, R250). A window in use conflicts on the namespace, which the command writes (R359). -/
def commitKeyDestroy (r : Rec) (d : Dev) : Verdict :=
  let k := leAt r.entry 8 2
  let erase := bitOf (byteAt r.entry 10) 0
  let named := d.namespacesOfKey k
  (fields [(8, named.isEmpty || erase)]).andThen <|
  (require (!d.cipher.stopped) Status.admissionRefused 0).andThen <|
  match d.memory.windows.find? fun w => named.contains w.2.nsid && w.2.live with
  | some w => some (Status.txnConflict, 0x6D + 6 * 256 + w.2.nsid * 65536)
  | none => none

/-- Effect of KEY_DESTROY: the entry is DESTROYING and its namespaces are fenced. -/
def applyKeyDestroy (r : Rec) (d : Dev) : Dev × Nat :=
  let k := leAt r.entry 8 2
  let d := d.onCipher fun c => { c with keys := alter c.keys k fun e =>
    { e with life := .destroying, destroyGen := d.control.gen, erase := bitOf (byteAt r.entry 10) 0 } }
  ((d.namespacesOfKey k).foldl (fun d n => d.onNs n fun x => x.fence .keyDestroyed) d, 0)

end Sys2Proof.Machine
end

