-- ==== Sys2Proof/Machine/Views.lean ====
section
/-! DEFINITION. What software sees of the module's state: the read-only register fields that report it, the log pages of R157 and
the TUNE page of R363. -/

namespace Sys2Proof.Machine

open Sys2Proof RegisterMap

/-! ## Sets as the shelf sees them -/

/-- The module with a set of its shelf in view: a set of the partner from its mirror (R29, R272). -/
def Dev.viewing (d : Dev) (n : Nat) : Dev := match find d.stripes.sets n, find d.peer.sets n with
  | none, some x => (d.takeSet n x).onSet n fun t => { t with owner := x.set.owner }
  | _, _ => d

/-- A set of the shelf. -/
def Dev.shelfSet (d : Dev) (n : Nat) : Option StripeSet := find (d.viewing n).stripes.sets n

/-- A member's state on page 0x04. -/
def MemberState.code : MemberState → Nat
  | .active => 0
  | .missing => 1
  | .rebuilding => 2
  | .retiring => 3
  | .failed => 4

/-- POSITION_PCT: the lowest rebuild position of a set, in units of 2^-32 of its stripes. -/
def Dev.positionPct (d : Dev) (n : Nat) (t : StripeSet) : Nat :=
  let l := t.layout.members.filterMap fun m => if m.2.state = .rebuilding then some (d.rebuildPosition n t m.2) else none
  match l with
  | [] => 0
  | x :: rest => min (2 ^ 32 - 1) (rest.foldl min x * 2 ^ 32 / max 1 t.layout.stripes)

/-- Blocks in the LOGICAL entries of a loss log. -/
def StripeSet.blocksLost (t : StripeSet) : Nat := (t.losses.filter Loss.logical).foldl (fun n l => n + l.count) 0

/-- Zones of the old layout that are not FREE. -/
def StripeSet.oldZones (t : StripeSet) : Nat := match t.old with
  | some l => (t.zones.filter fun z => z.2.generation == l.generation).length
  | none => 0

/-- LEDGER_HOST of a set, with the value that stands for save-flash. -/
def StripeSet.ledgerCode (t : StripeSet) (flash : Nat) : Nat := match t.ledger with
  | .flash => flash
  | .members s _ _ => s

/-! ## Read-only fields (R8, R32 to R499) -/

/-- Value of a field: lowest bit, width and value. -/
abbrev FieldValue := Nat × Nat × Nat

/-- Fields of the per-set registers of STR (R298, R324). [log 18: DEDUCED] -/
def Dev.setStatus (d : Dev) (n off : Nat) : List FieldValue :=
  match d.shelfSet n with
  | none => []
  | some t => match off with
    | 0x00 => [(0, 3, t.state.code), (3, 2, t.layout.type.code), (5, 2, t.redundancy), (7, 1, t.owner), (8, 5, t.ledgerCode 16)]
    | 0x08 => [(0, 20, t.layout.zones), (32, 20, t.freeZones)]
    | 0x18 => [(0, 64, t.nextSeq)]
    | 0x30 => [(32, 32, d.positionPct n t)]
    | 0x38 => [(0, 16, t.layout.generation), (16, 1, flag t.old.isSome), (32, 20, t.oldZones)]
    | 0x40 => [(0, 17, t.losses.length), (24, 40, min (2 ^ 40 - 1) t.blocksLost)]
    | 0x50 => [(0, 64, Config.scrubPosition n d.now % max 1 t.layout.stripes)]
    | _ => []

/-- Fields of the control path's, trust's, fail-over's and start-up's registers. [log 18: DEDUCED] -/
def Dev.ctlStatus (d : Dev) (addr : Nat) : List FieldValue :=
  let c := d.control
  let runs := bitmap 8 fun n => !c.stewardsRestarting.contains n
  match addr with
  | 0x00 => [(0, 64, c.gen)]
  | 0x08 => [(0, 3, bitmap 3 c.coresFenced.contains), (3, 1, flag c.recopying), (4, 1, flag c.degraded), (5, 1, flag c.halted),
      (16, 16, c.recopies)]
  | 0x0C => [(0, 8, if d.startUp.phase < 3 then 0 else runs), (8, 8, bitmap 8 c.stewardsRestarting.contains)]
  | 0x10 => [(0, 4, bitmap 4 fun n => (find c.txns n).isSome), (4, 1, flag (!c.narrowing.isEmpty))]
  | 0x44 => [(0, 3, d.trust.stage.code), (3, 6, d.trust.verifiedMap), (9, 1, flag d.trust.partnerCopy), (10, 1, flag d.trust.slotIncomplete)]
  | 0x48 => [(0, 32, manifestVersion d.trust.running)]
  | 0x4C => [(0, 32, d.trust.svnMin)]
  | 0x50 => [(0, 64, d.trust.bootCount)]
  | 0x58 => [(0, 64, Config.serial)]
  | 0x200 => [(0, 2, match d.peer.state with
      | .absent => 0
      | .syncing => 1
      | .standbyReady => 2
      | .failed => 3), (2, 1, flag d.peer.selfReady), (3, 1, flag d.peer.gateClosed), (4, 1, flag d.peer.aliveIn),
      (5, 1, flag d.peer.ownerIn), (16, 16, d.owned), (32, 32, min max32 d.peer.lastGapUs)]
  | 0x400 => [(0, 3, d.startUp.phase), (3, 3, d.startUp.fail), (6, 1, flag d.startUp.dumpUsed), (7, 1, flag d.startUp.claimConflict),
      (8, 1, flag d.startUp.peerUnreached), (16, 16, min 65535 d.startUp.startMs)]
  | _ =>
    if 0x138 ≤ addr && decide (addr < 0x200) && addr % 0x40 == 0x38 then
      let b := d.bank ((addr - 0x138) / 0x40)
      [(0, 2, b.state), (4, 4, b.reason), (8, 24, b.length)]
    else []

/-- Poll intervals of the SQs and mouthpieces in use, in units of 100 ns. -/
def Dev.pollIntervals (d : Dev) : List Nat :=
  (d.front.sqs.map fun q => q.2.pollInterval).filter (· != 0)

/-- A fraction and 1 / i added. -/
def addInverse (f : Nat × Nat) (i : Nat) : Nat × Nat := (f.1 * i + f.2, f.2 * i)

/-- POLL_STRETCH: the factor of R117 in units of 1/256, not below 1. [log 125: DEDUCED] -/
def Dev.pollStretch (d : Dev) : Nat :=
  let f := d.pollIntervals.foldl addInverse (0, 1)
  max 256 (f.1 * 10000000 * 256 / (f.2 * 100000000))

/-- Fields of the front end's, the chanters', the compression engine's and the cipher's registers. [log 18: DEDUCED] -/
def Dev.engineStatus (d : Dev) (addr : Nat) : List FieldValue :=
  let fenced (l : List Nat) (lo n : Nat) : Nat := bitmap n fun i => l.contains (lo + i)
  if addr = cmd + 0x1C then [(0, 32, d.pollStretch)]
  else if addr = cmd + 0x20 then
    [(0, 1, flag d.control.frozen), (1, 2, d.control.frozenClient), (3, 16, d.control.frozenIndex), (32, 32, d.control.frozenBreath)]
  else if addr = cmd + 0x28 then
    [(0, 16, (d.front.sqs.filter fun q => q.2.fenced).length + (d.front.cqs.filter fun q => q.2.fenced).length)]
  else if addr = cmd + 0x2C then [(0, 21, 2 ^ 20 - d.poolUsed)]
  else if addr = cmd + 0x30 then [(0, 22, d.recordFree)]
  else if addr = cha + 8 then [(0, 48, fenced d.chanters.fenced 0 48)]
  else if addr = cha + 0x10 then [(0, 11, d.programsHeld), (32, 21, 2 ^ 20 - d.codeWords)]
  else if addr = cha + 0x1C then [(0, 32, d.libVersion)]
  else if addr = cha + 0x20 then [(0, 9, d.chanters.threads.length)]
  else if addr = cpe then [(0, 16, fenced d.compression.fenced 0 16), (16, 16, fenced d.compression.fenced 16 16)]
  else if addr = cpe + 8 then [(0, 7, (d.stoppedOn true).length), (16, 7, (d.stoppedOn false).length)]
  else if cpe + 0x100 ≤ addr && decide (addr < cpe + 0x200) && addr % 8 == 0 then
    let n := (addr - (cpe + 0x100)) / 8
    let method (t : Nat) (k : Ticket) : Nat := match find d.chanters.threads t with
      | some a => if k.op = .zc then leAt a.frame 0x34 4 % 4 else match k.sources with
        | p :: _ => byteAt (d.areaBytes a p.area p.start p.length) 1 % 4
        | [] => 0
      | none => 0
    let broken := (3, 1, flag (d.compression.fenced.contains n))
    match d.onLane n with
    | some (t, _, k) => [(0, 1, 1), (1, 2, method t k), broken, (4, 17, Config.laneConsumed n d.now), (24, 17, Config.laneProduced n d.now)]
    | none => [broken]
  else if addr = cip then [(0, 64, fenced d.cipher.fenced 0 64)]
  else if addr = cip + 8 then [(0, 32, fenced d.cipher.fenced 64 32)]
  else if addr = cip + 0x0C then
    [(0, 13, (d.cipher.keys.filter fun k => decide (k.2.life = .live)).length),
     (16, 13, (d.cipher.keys.filter fun k => decide (k.2.life = .destroying)).length)]
  else if addr = cip + 0x10 then
    [(0, 2, bitmap 2 d.cipher.failing.contains), (2, 1, flag d.cipher.stopped), (3, 1, flag d.cipher.maskStale)]
  else if addr = cip + 0x18 then [(0, 7, d.cipher.gcmContexts.length), (16, 7, d.cipher.xtsContexts.length)]
  else if addr = cip + 0x28 then [(0, 32, d.cipher.kskEpoch)]
  else []

/-- Fields of the grid's, the ports', the switch's and the stripe engine's registers. [log 18: DEDUCED] -/
def Dev.pathStatus (d : Dev) (addr : Nat) : List FieldValue :=
  if addr = brg + 0x48 then [(0, 64, d.brgStatus)]
  else if addr = brg + 0x50 then [(0, 64, d.breath)]
  else if addr = brg + 0x58 then [(0, 64, d.grid.labelOffset)]
  else if addr = hpc + 0x10 then [(0, 21, d.transport.replay.length), (32, 16, d.transport.horizonUs)]
  else if addr = swc then
    [(0, 20, d.cellsUsed), (20, 1, flag (d.switch.spilling && decide (d.field (swc + 8) 20 20 ≤ d.cellsUsed))), (21, 2, match d.switch.refusing with
      | some (0, _) => 1
      | some _ => 2
      | none => 0), (24, 8, bitmap 8 d.switch.slicesFenced.contains), (32, 21, d.descriptors)]
  else if addr = swc + 0x1C then [(0, 32, d.stagingFree)]
  else if addr = swc + 0x30 then [(0, 64, d.spillBytes)]
  else if addr = sch + 0x18 then [(0, 18, (d.switch.queues.filter fun q => decide (2 ≤ q.2.service)).length)]
  else if addr = str then [(0, 24, d.pagesUsed), (32, 24, d.pagesReserved)]
  else if addr = str + 8 then
    [(0, 22, d.stripes.journal.length), (32, 32, d.stripes.journal.foldl (fun n r => min n r.jseq) d.stripes.nextJseq)]
  else if addr = str + 0x10 then [(0, 32, (d.tailUsed + 1023) / 1024), (32, 21, d.tailEntries)]
  else if addr = str + 0x28 then
    [(0, 32, d.spareMap), (32, 5, (d.stripes.spares.filter fun s => s.2 == 255).length)]
  else if str + 0x1000 ≤ addr && decide (addr < str + 0x1800) then d.setStatus ((addr - (str + 0x1000)) / 0x80) ((addr - str) % 0x80)
  else []

/-- Code of an inlet state. -/
def InletState.code : InletState → Nat
  | .wait => 0
  | .delay => 1
  | .ramp => 2
  | .on => 3
  | .fault => 4
  | .retry => 5

/-- Code of a bay's 12 V state. -/
def BayPower.code : BayPower → Nat
  | .empty => 0
  | .delay => 1
  | .ramp => 2
  | .on => 3
  | .fault => 4
  | .retry => 5
  | .off => 6

/-- Fields of the drive bays', the power subsystem's and the counter collector's registers. [log 18: DEDUCED] -/
def Dev.bayStatus (d : Dev) (addr : Nat) : List FieldValue :=
  let p := d.power
  if dpc + 0x1000 ≤ addr && decide (addr < dpc + 0x2000) then
    let b := d.bay ((addr - (dpc + 0x1000)) / 0x80)
    match (addr - dpc) % 0x80 with
    | 0x00 => [(0, 3, b.state.code), (3, 3, b.speed), (8, 8, min 255 (d.field (dpc + 8) 0 8)), (16, 4, b.queues)]
    | 0x10 => [(0, 16, b.quarantined.length)]
    | _ => []
  else if addr = pwr then
    [(0, 3, p.inlet.code), (3, 3, p.cause), (6, 2, p.tries), (8, 1, flag p.seated), (9, 1, flag p.budget),
     (10, 1, flag (p.stale.any fun s => decide (s < 4)))]
  else if addr = pwr + 0x08 then [(0, 32, d.reading 0)]
  else if addr = pwr + 0x0C then [(0, 32, d.reading 1)]
  else if addr = pwr + 0x10 then [(0, 32, d.reading 3)]
  else if addr = pwr + 0x20 then
    [(0, 16, d.reading 2 / 10), (16, 1, flag p.armed), (17, 1, flag p.full), (18, 1, flag p.charging), (20, 12, min 4095 p.capMf),
     (32, 16, min 65535 (usable p.capacitance (d.reading 2))), (48, 2, p.lastSave)]
  else if pwr + 0x40 ≤ addr && decide (addr < pwr + 0x70) && addr % 8 == 0 then
    let f := (addr - (pwr + 0x40)) / 8
    [(0, 16, (find p.rpm f).getD 0), (16, 7, p.dutyOut f), (23, 1, flag (p.fansFailed.contains f))]
  else if pwr + 0x1000 ≤ addr && decide (addr < pwr + 0x1400) then
    let n := (addr - (pwr + 0x1000)) / 0x20
    let c := d.channel n
    match (addr - pwr) % 0x20 with
    | 0x04 => [(0, 3, c.state.code), (3, 1, flag c.present), (4, 1, flag c.aux), (5, 3, c.cause), (8, 2, c.tries), (10, 1, flag c.shared)]
    | 0x08 => [(0, 16, d.reading (16 + 3 * n)), (16, 16, d.reading (16 + 3 * n + 1)), (32, 16, d.reading (16 + 3 * n + 2))]
    | _ => []
  else if addr = cnt + 4 then [(0, 1, flag d.counters.frozen), (1, 1, flag d.unsupported)]
  else if addr = cnt + 8 then [(0, 64, d.counters.frozenBreath)]
  else if addr = cnt + 0x14 then [(0, 32, d.counters.snapIndex)]
  else if addr = cnt + 0x38 then [(0, 32, d.counters.tagIndex)]
  else []

/-- The read-only fields of a register that report the module's state, by block. [log 18: DEDUCED] -/
def Dev.status (d : Dev) (addr : Nat) : List FieldValue := match addr / 2 ^ 20 with
  | 0 => d.ctlStatus addr
  | 1 | 2 | 3 | 4 | 9 => d.pathStatus addr
  | 5 | 6 | 7 | 8 => d.engineStatus addr
  | 10 | 11 | 13 => d.bayStatus addr
  | _ => []

/-! ## Log pages (R157) -/

/-- Page 0x01: a fenced queue's record (R124); the mouthpiece of client 0 under UNIT 0 (R457). [log 114: DEDUCED] -/
def Dev.recordPage (d : Dev) (unit : Nat) : Bytes :=
  let entries (q : Option Cq) : List Completion := match q with
    | some q => if q.fenced then q.record else []
    | none => []
  let l := if unit = 0 then d.front.mp0Record ++ entries (find d.front.cqs (mouthpiece 0)) else entries (find d.front.cqs unit)
  (l.map fun c => c.bytes true).flatten

/-- Code of a window's state on a page: 1 DISARMED to 4 FENCED. -/
def WindowMode.code : WindowMode → Nat
  | .disarmed => 1
  | .armed => 2
  | .draining => 3
  | .fenced => 4

/-- FIRST_BREATH as the pages give it: 0 when never armed. -/
def Window.pageBreath (w : Window) : Nat := if w.everArmed then w.firstBreath else 0

/-- Page 0x02: the counts of a window. [log 114: DEDUCED] -/
def Window.page (w : Window) : Bytes :=
  leBytes 4 w.late ++ leBytes 4 w.slotBusy ++ leBytes 4 w.admitted ++ leBytes 4 w.breathsMissed ++ leBytes 1 w.mode.code ++ zeros 7 ++
    leBytes 8 w.pageBreath

/-- An entry of page 0x03. -/
def Loss.page (l : Loss) : Bytes :=
  leBytes 1 (flag l.logical) ++ leBytes 1 l.cause ++ zeros 2 ++ leBytes 4 l.nsid ++
    leBytes 8 (if l.logical then l.first else l.first % 2 ^ 56 + l.generation % 256 * 2 ^ 56) ++ leBytes 4 l.count ++ leBytes 4 l.units ++
    leBytes 8 l.breath

/-- Page 0x03: a set's loss log (R313). -/
def StripeSet.lossPage (t : StripeSet) : Bytes :=
  leBytes 4 t.losses.length ++ leBytes 4 (t.losses.filter fun l => !l.logical).length ++ leBytes 1 (flag t.overstated) ++ zeros 7 ++
    leBytes 8 t.blocksLost ++ zeros 40 ++ (t.losses.map Loss.page).flatten

/-- Page 0x04: a set's and its members' status (R297). [log 114: DEDUCED] -/
def Dev.setPage (d : Dev) (n : Nat) (t : StripeSet) : Bytes :=
  let live := t.zones.foldl (fun k z => k + d.liveBlocks n z.1) 0
  let member (m : Nat) : Bytes := match find t.layout.members m with
    | some x => leBytes 1 x.bay ++ leBytes 1 x.state.code ++ zeros 6 ++ leBytes 8 (d.rebuildPosition n t x)
    | none => leBytes 2 0xFFFF ++ zeros 14
  let space (x : Nat × Namespace) : Bytes :=
    let key := (find d.cipher.keys x.2.keyId).map KeyEntry.key
    leBytes 4 x.1 ++ leBytes 2 x.2.keyId ++ leBytes 1 (flag (!x.2.fences.isEmpty)) ++ zeros 1 ++ leBytes 8 x.2.size ++ leBytes 8 x.2.mapped ++
      leBytes 8 ((key.map kcv).getD 0)
  leBytes 1 t.state.code ++ leBytes 1 t.layout.type.code ++ leBytes 1 t.layout.width ++ leBytes 1 t.layout.minRedundancy ++
    leBytes 1 t.redundancy ++ leBytes 1 (t.owner + 2 * flag t.old.isSome) ++ leBytes 1 (t.ledgerCode 255) ++ zeros 1 ++
    leBytes 8 t.layout.stripes ++ leBytes 4 t.layout.zones ++ leBytes 4 t.freeZones ++ leBytes 8 live ++ leBytes 8 t.nextSeq ++ zeros 24 ++
    ((List.range 32).map member).flatten ++ ((d.stripes.namespaces.filter fun x => x.2.set == n).map space).flatten

/-- Page 0x06: a client's event history (R484). -/
def EventClient.page (c : EventClient) : Bytes :=
  leBytes 8 (c.posted - c.history.length) ++ leBytes 4 c.history.length ++ zeros 52 ++ (c.history.reverse.map EventRecord.bytes).flatten

/-- A log page by LOG_ID and UNIT for a client; `none` where nothing has that unit. [log 114: DEDUCED] -/
def Dev.logPage (d : Dev) (client id unit : Nat) : Option Bytes := match id with
  | 1 => if unit = 0 || (find d.front.cqs unit).isSome && queueId unit then some (d.recordPage unit) else none
  | 2 => (find d.memory.windows unit).map Window.page
  | 3 => (d.shelfSet unit).map StripeSet.lossPage
  | 4 => (d.shelfSet unit).map fun t => (d.viewing unit).setPage unit t
  | 5 => if unit < 32 then some (d.drivePage unit) else none
  | 6 => if unit = 0 then some (d.client client).page else none
  | _ => none

/-! ## The TUNE page (R363) -/

/-- Length of the TUNE page. -/
def tuneLength : Nat := 30208

/-- A bitmap of the units `1 … n` as bytes. -/
def bitmapBytes (n : Nat) (p : Nat → Bool) : Bytes :=
  (List.range ((n + 7) / 8)).map fun j => BitVec.ofNat 8 (bitmap 8 fun i => p (8 * j + i + 1))

/-- Code of an SA's state. -/
def SaState.code : SaState → Nat
  | .free => 0
  | .enrolled => 1
  | .active => 2
  | .expired => 3

/-- The TUNE page of a client. [log 114: DEDUCED] -/
def Dev.tunePage (d : Dev) (client : Nat) : Bytes :=
  let txn := find d.control.txns client
  let sq (p : Sq → Bool) (n : Nat) : Bool := ((find d.front.sqs n).map p).getD false
  let cq (p : Cq → Bool) (n : Nat) : Bool := ((find d.front.cqs n).map p).getD false
  let ns (p : Namespace → Bool) (n : Nat) : Bool := match find d.stripes.namespaces n with
    | some x => p x
    | none => ((d.partnerNs n).map p).getD false
  let set (n : Nat) : Bytes := match d.shelfSet n with
    | some t => leBytes 1 t.state.code ++ leBytes 1 t.layout.type.code ++ leBytes 1 t.layout.width ++ leBytes 1 t.redundancy ++
        leBytes 1 (t.owner + 2 * flag t.old.isSome) ++ zeros 3 ++ leBytes 8 t.nextSeq
    | none => leBytes 1 255 ++ zeros 15
  let window (n : Nat) : Bytes := match find d.memory.windows n with
    | some w => leBytes 1 w.mode.code ++ zeros 3 ++ leBytes 4 w.nsid ++ leBytes 8 w.pageBreath
    | none => zeros 16
  let sa (j : Nat) : Byte := BitVec.ofNat 8 ((List.range 4).foldl (fun v i =>
    v + ((find d.transport.sas (4 * j + i)).map fun s => s.state.code).getD 0 * 4 ^ i) 0)
  let head := leBytes 1 1 ++ leBytes 1 d.slot ++ leBytes 1 client ++ leBytes 1 (d.brgStatus % 4) ++ leBytes 4 tuneLength ++
    leBytes 8 d.breath ++ leBytes 8 d.control.gen ++ leBytes 8 (d.admitSeq d.front.admitNext) ++
    leBytes 8 ((txn.map Txn.number).getD 0) ++ leBytes 8 ((txn.map Txn.beginGen).getD 0) ++
    leBytes 2 ((txn.map fun t => t.recorded.length).getD 0) ++
    leBytes 1 (flag d.control.frozen + 2 * flag d.control.degraded + 4 * flag d.standbyReady + 8 * d.field 0x40 0 1) ++ zeros 5 ++
    leBytes 8 (d.client client).posted ++ leBytes 4 d.libVersion ++ leBytes 4 d.programsHeld
  padTo tuneLength (padTo 0x100 head ++ bitmapBytes 16384 (sq fun _ => true) ++ bitmapBytes 16384 (sq Sq.fenced) ++
    bitmapBytes 16384 (cq fun _ => true) ++ bitmapBytes 16384 (cq Cq.fenced) ++ bitmapBytes 4096 (ns fun _ => true) ++
    bitmapBytes 4096 (ns fun x => !x.fences.isEmpty) ++ ((List.range 16).map set).flatten ++ ((List.range 1024).map window).flatten ++
    (List.range 4096).map sa)

end Sys2Proof.Machine
end

