-- ==== Sys2Proof/Machine/Registers.lean ====
section
/-! DEFINITION. Register accesses: what a read returns and clears, the registers whose writes set something going, the registers
reserved to trusted firmware, and the crossings into stopped clock domains (R7 to R11, R51 to R54, R121, R158, R252, R354, R370 to
R372, R446, R447, R465, R471). -/

namespace Sys2Proof.Machine

open Sys2Proof RegisterMap

/-! ## Reads (R7 to R9, R158, R466) -/

/-- The registers of CNT_LANE_TEST. -/
def inLaneTest (addr : Nat) : Bool := decide (laneParam ≤ addr) && decide (addr < laneOut + 4112)

/-- The word of a register as a read returns it, and the module after it: RNG_RAW draws, in test mode. [log 18: DEDUCED] -/
def Dev.readWord (d : Dev) (r : Register) (addr : Nat) : Nat × Dev :=
  if addr = cip + 0x60 then
    if d.testing then let (b, d) := d.draw 8; (leNat b, d) else (0, d)
  else if inLaneTest addr && !d.testing then (0, d)
  else if totalRegisters.contains addr then (d.totalRead addr, d)
  else
    let w := (d.status addr).foldl (fun w f => withBits w f.1 f.2.1 f.2.2) (d.storedWord r addr)
    (if addr = 0x314 then [4, 12, 20, 28].foldl (fun w b => withBits w b 1 1) w else w, d)

/-- RC fields that an access covers are cleared by it. -/
def Dev.clearRead (d : Dev) (h : Hit) : Dev :=
  h.reg.fields.foldl (fun d f => if f.access = .rc && h.covers f then d.setField h.addr f.lo f.width 0 else d) d

/-- One register's part of a read: its bits shifted into the accessed word. -/
def Dev.readHit (d : Dev) (addr : Nat) (h : Hit) : Nat × Dev :=
  let (w, d) := d.readWord h.reg h.addr
  let w := Nat.land w h.mask
  (if h.addr < addr then w / 2 ^ 32 else w * 2 ^ (8 * (h.addr - addr)), d.clearRead h)

/-- A read of 4 or 8 bytes at an aligned offset; bytes that no register holds read 0. -/
def Dev.readRegs (d : Dev) (addr bytes : Nat) : Nat × Dev :=
  (hits addr bytes 0).foldl (fun (p : Nat × Dev) h =>
    let q := p.2.readHit addr h
    (p.1 + q.1, q.2)) (0, d)

/-! ## Crossings (R51 to R54) -/

/-- Destination block of a register, numbered as in CTL_XING_FLUSH; `none` = no crossing. -/
def blockOf (addr : Nat) : Option Nat :=
  if dpc + 0x1000 ≤ addr && decide (addr < dpc + 0x2000) then some ((addr - (dpc + 0x1000)) / 0x80)
  else if addr / 2 ^ 20 = 12 then some 32
  else if addr / 2 ^ 20 = 11 then some 33
  else if hpc + 0x5000 ≤ addr && decide (addr < hpc + 0x5100) then some (34 + (addr - (hpc + 0x5000)) / 0x40)
  else if hpc + 0x1000 ≤ addr && decide (addr < hpc + 0x5000) then some 39
  else none

/-- A destination clock is stopped: a bay that is powered off or has lost its link, or an endpoint whose link is down. [log 20: DEDUCED] -/
def Dev.stopped (d : Dev) (block : Nat) : Bool :=
  if block < 32 then decide ((d.channel block).state ≠ .on) || decide ((d.bay block).state = .linkLost)
  else block == 32 && d.field (pep + 4) 0 3 == 0

/-- Writes that one block's crossing holds, and those that wait for an entry. [log 21: DEDUCED] -/
def Crossing.at (c : Crossing) (block : Nat) : List HeldWrite × List HeldWrite :=
  ((find c.held block).getD [], (find c.waiting block).getD [])

/-- Entries of a crossing. -/
def crossingEntries : Nat := 16

/-- Writes of one block placed: the first 16 held, the others waiting. [log 21: DEDUCED] -/
def Dev.placeHeld (d : Dev) (block : Nat) (l : List HeldWrite) : Dev :=
  let set (t : Table (List HeldWrite)) (l : List HeldWrite) : Table (List HeldWrite) := if l.isEmpty then drop t block else put t block l
  { d with crossing := {
      held := set d.crossing.held (l.take crossingEntries), waiting := set d.crossing.waiting (l.drop crossingEntries) } }

/-- A write into a stopped domain: held, or waiting for an entry. [log 21: DEDUCED] -/
def Dev.holdWrite (d : Dev) (block : Nat) (w : HeldWrite) : Dev :=
  let (held, waiting) := d.crossing.at block
  d.placeHeld block (held ++ waiting ++ [w])

/-- A write of CTL_XING_FLUSH: the held writes of the blocks named are discarded, and writes that waited take their places. -/
def Dev.flushCrossings (d : Dev) (mask : Nat) : Dev :=
  (List.range 40).foldl (fun d b => if bitOf mask b then d.placeHeld b (d.crossing.at b).2 else d) d

/-- XING_FLUSH. -/
def execXingFlush (mask : Nat) (s : State) : Answer := s.act fun d => d.flushCrossings mask

/-- What a read into a stopped domain returns. -/
def crossingTimeout : Nat := 0xC10C57AD

/-- A read into a stopped domain has waited 10 µs. [log 21: DEDUCED] -/
def Dev.timeoutRead (d : Dev) (block : Nat) : Dev := (d.setField 0x30 0 1 1).setField 0x30 (8 + block) 1 1

/-- CROSSING_READ_TIMEOUT: a read whose domain is stopped. Blocks 33 to 39 stop only while they are held in reset. -/
def execCrossingReadTimeout (addr : Nat) (s : State) : Answer := s.act fun d => match blockOf addr with
  | some b => if b < 33 && !d.stopped b then d else (d.timeoutRead b).emit (.register addr crossingTimeout)
  | none => d

/-- CROSSING_WRITE_DROP: the oldest write that waited 10 µs for an entry is discarded. -/
def execCrossingWriteDrop (block : Nat) (s : State) : Answer := s.act fun d =>
  let (held, waiting) := d.crossing.at block
  if waiting.isEmpty then d else (d.placeHeld block (held ++ waiting.drop 1)).setField 0x30 1 1 1

/-! ## Client 0's mouthpiece (R120, R121) -/

/-- Offset of CMD_MP0_CFG. -/
def mp0Cfg : Nat := cmd + 0x10

/-- CMD_MP0_CFG.ENABLE. -/
def Dev.mp0On (d : Dev) : Bool := bitOf (d.reg mp0Cfg) 32

/-- POLL_INTERVAL, VECTOR and IRQ_EN of CMD_MP0_CFG as the queues hold them. -/
def Dev.configureMp0 (d : Dev) : Dev :=
  let c := d.reg mp0Cfg
  (d.onSq (mouthpiece 0) fun q => { q with pollInterval := bitsOf c 16 16 }).onCq (mouthpiece 0) fun q =>
    { q with vector := bitsOf c 34 11, irqEn := bitOf c 33 }

/-- ENABLE becomes 1: both rings start at index 0. A record of an endpoint reset stays for GET_LOG page 0x01 (R457). [log 35: DEDUCED] -/
def Dev.startMp0 (d : Dev) : Dev :=
  let key := mouthpiece 0
  let n := d.field mp0Cfg 0 16
  let sq : Sq := { place := .host, entries := n, addr := d.reg cmd, cq := key, maxInflight := 256, client := 0 }
  let old : Cq := (find d.front.cqs key).getD { place := .host, entries := n }
  let cq := { old with
    place := .host, entries := n, addr := d.reg (cmd + 8), tail := 0, free := 0, fenced := false, record := [], client := 0 }
  let d := ((d.dropPolls key).dropScans key).onFront fun f => { f with
    mp0Record := f.mp0Record ++ old.record, sqs := put f.sqs key sq, cqs := put f.cqs key cq }
  (d.configureMp0).scanCq key

/-- ENABLE becomes 0: fetching stops. [log 35: DEDUCED] -/
def Dev.stopMp0 (d : Dev) : Dev := d.onSq (mouthpiece 0) fun q => { q with taken := [], reading := false }

/-- A write to one of the CMD_MP0 registers: bases and ENTRIES keep their values while ENABLE is 1. [log 20: DEDUCED] -/
def Dev.writeMp0 (d : Dev) (h : Hit) (client now : Nat) : Dev × Bool :=
  let on := d.mp0On
  if h.addr ≠ mp0Cfg then if on then (d, false) else d.writeFields h client now
  else
    let h := if on then { h with mask := h.mask - Nat.land h.mask 0xFFFF } else h
    let (d, bad) := d.writeFields h client now
    let d := if on && !d.mp0On then d.stopMp0 else if !on && d.mp0On then d.startMp0 else d.configureMp0
    (d, bad)

/-- MP0_ENABLE: a write of CMD_MP0_CFG. [log 35: DEDUCED] -/
def execMp0Enable (now value : Nat) (s : State) : Answer := s.act fun d =>
  let d := d.clock now
  match registerAt mp0Cfg with
  | some r => (d.writeMp0 { reg := r, addr := mp0Cfg, mask := 2 ^ 64 - 1, value := value % 2 ^ 64 } 0 now).1
  | none => d

/-! ## Writes that set something going -/

/-- A write to an attestation bank: CMD with GO starts an operation (R371). -/
def Dev.writeBank (d : Dev) (h : Hit) (client now : Nat) : Dev × Bool :=
  if h.addr % 0x40 ≠ 0x30 then d.writeFields h client now else
  let op := bitsOf h.value 0 2
  let bank := (h.addr - 0x130) / 0x40
  let bad := op == 3
  let d := if bad then d.unlisted h.addr 0 op else d
  let op := if bad then (d.bank bank).op else op
  (if bitOf h.value 2 then d.attest client bank op else d, bad)

/-- A write to the event ring's registers (R483). [log 101: DEDUCED] -/
def Dev.writeRing0 (d : Dev) (h : Hit) (client now : Nat) : Dev × Bool :=
  let on := bitOf (d.reg 0x308) 16
  if h.addr = 0x308 then
    let h := if on then { h with mask := h.mask - Nat.land h.mask 0xFFFF } else h
    let (d, bad) := d.writeFields h client now
    (if !on && bitOf (d.reg 0x308) 16 then d.startRing else d, bad)
  else
    let (d, bad) := d.writeFields h client now
    (if h.addr = 0x310 then d.ringEvents else d, bad)

/-- A write to CIP_TEST: mode, masking and operation, and GO (R252). `none` = the entry into test mode is denied. -/
def Dev.writeTest (d : Dev) (h : Hit) (client : Nat) : Option (Dev × Bool) :=
  let op := bitsOf h.value 3 5
  let enter := bitOf h.value 0
  if enter && !d.testing && !d.testAllowed client then none else
  let d := if enter then d.enterTest client else d.when d.testing Dev.leaveTest
  let d := if d.testing then d.setField h.addr 1 1 (bitsOf h.value 1 1) else d
  let bad := decide (op > 3)
  let d := if bad then d.unlisted h.addr 3 op else d.setField h.addr 3 5 op
  some (d.when (bitOf h.value 2) fun d => d.goTest client (d.field h.addr 3 5), bad)

/-- A write to CIP_TEST_KEY: it has an effect in test mode only. -/
def Dev.writeTestKey (d : Dev) (h : Hit) : Dev :=
  if !d.testing then d else
  let off := h.addr - (cip + 0x40)
  let old := leAt d.cipher.test.key off 8
  let v := old - Nat.land old h.mask + Nat.land h.value h.mask
  d.onCipher fun c => { c with test := { c.test with key := patch (padTo 32 c.test.key) off (leBytes 8 v) } }

/-- A write to CNT_CTL: freezes, resumes, their arming, CLEAR_ALL and SNAP_DIV (R464, R465, R467). [log 72: DEDUCED] -/
def Dev.writeCntCtl (d : Dev) (h : Hit) (now : Nat) : Dev × Bool :=
  let v := h.value
  let both := bitOf v 1 && bitOf v 2
  let d := if bitOf v 0 then d.freeze 0 else d.resume
  let d := d.setField cnt 16 16 (bitsOf v 16 16)
  let d := d.when (bitOf v 3) Dev.clearCounters
  if both then (d.unlisted cnt 1 3, true) else
  let d := if bitOf v 1 then d.armFreeze now else (d.onCounters fun c => { c with freezeArm := none }).setField cnt 1 1 0
  (if bitOf v 2 then d.armResume now else (d.onCounters fun c => { c with resumeArm := none }).setField cnt 2 1 0, false)

/-- A write to one register by a client, arrived at an instant: the module after it, and whether a value was rejected; `none` = the
write is denied. [log 17: DEDUCED] -/
def Dev.writeHit (d : Dev) (h : Hit) (client now : Nat) : Option (Dev × Bool) :=
  let a := h.addr
  if a = 0x14 then
    let v := h.value % 65536
    some (if v = 0xC7A5 then (d.startControlReset 0, false) else (d.unlisted a 0 v, true))
  else if a = 0x38 then some (d.flushCrossings (h.value % 2 ^ 40), false)
  else if 0x100 ≤ a && decide (a < 0x200) then some (d.writeBank h client now)
  else if 0x300 ≤ a && decide (a < 0x314) then some (d.writeRing0 h client now)
  else if a = cmd || a = cmd + 8 || a = mp0Cfg then some (d.writeMp0 h client now)
  else if a = cip + 0x2C then d.writeTest h client
  else if cip + 0x40 ≤ a && decide (a < cip + 0x60) then some (d.writeTestKey h, false)
  else if a = pep + 0x10 then some (d.commitWindows h.value, false)
  else if a = pep + 0x18 then
    let old := d.reg a
    some (d.holdWindows (old - Nat.land old h.mask + Nat.land h.value h.mask), false)
  else if a = cnt then some (d.writeCntCtl h now)
  else if inLaneTest a && !d.testing then some (d, false)
  else some (d.writeFields h client now)

/-! ## Whole writes -/

/-- A write to a register is denied to a client: the registers reserved to trusted firmware, outside a transaction. `direct` = through
BAR0, which is client 0's. -/
def deniedHit (client : Nat) (direct : Bool) (h : Hit) : Bool :=
  let a := h.addr
  let bank := decide (0x100 ≤ a) && decide (a < 0x200)
  if a = 0x14 then !direct || client != 0
  else if a = 0x18 || a = cip + 0x2C || (decide (cip + 0x40 ≤ a) && decide (a < cip + 0x60)) || inLaneTest a then client != 0
  else if [brg, brg + 8, brg + 0x10, brg + 0x18, brg + 0x40, pwr + 4, pwr + 0x28].contains a then true
  else if pwr + 0x1000 ≤ a && decide (a < pwr + 0x1400) && a % 0x20 == 0 then true
  else if bank then client != (a - 0x100) / 0x40
  else if a = 0x40 then bitOf h.mask 0 && !bitOf h.value 0 && client != 0
  else if a = pep + 0x10 || a = pep + 0x18 || (decide (pep + 0x1000 ≤ a) && decide (a < pep + 0x3000)) then client != 0
  else false

/-- How a register write ends. -/
inductive WriteEnd where
  | done | rejected | denied
  deriving DecidableEq, Repr

/-- A write carried out on the registers it covers, with no crossing in between. -/
def Dev.writeNow (d : Dev) (client now addr bytes value : Nat) : Dev × WriteEnd :=
  (hits addr bytes value).foldl (fun (p : Dev × WriteEnd) h => match p.1.writeHit h client now with
    | some (d, bad) => (d, if bad && decide (p.2 = .done) then .rejected else p.2)
    | none => (p.1, .denied)) (d, .done)

/-- A write of 4 or 8 bytes at an aligned offset by a client: denied as a whole, held at a stopped crossing, or carried out. [log 17: DEDUCED] -/
def Dev.writeRegs (d : Dev) (client : Nat) (direct : Bool) (now addr bytes value : Nat) : Dev × WriteEnd :=
  if (hits addr bytes value).any (deniedHit client direct) then (d, .denied) else
  match blockOf addr with
  | some b =>
    if d.stopped b && !(direct && b == 32) then
      (d.holdWrite b { addr := addr, bytes := bytes, value := value, client := client }, .done)
    else d.writeNow client now addr bytes value
  | none => d.writeNow client now addr bytes value

/-- CROSSING_WRITE_LAND: a stopped clock has returned; the held writes land in the order written. [log 21: DEDUCED] -/
def execCrossingWriteLand (block : Nat) (now : Nat) (s : State) : Answer := s.act fun d =>
  let d := d.clock now
  if d.stopped block then d else
  let (held, waiting) := d.crossing.at block
  (held ++ waiting).foldl (fun d w => (d.writeNow w.client now w.addr w.bytes w.value).1) (d.placeHeld block [])

/-- A BAR0 access that is refused is counted. [log 17: DEDUCED] -/
def Dev.badAccess (d : Dev) : Dev := (d.count (pep + 0x24)).noteAccess 0

/-- An access has a shape that BAR0 takes: 4 or 8 bytes, naturally aligned, inside the register space. -/
def shapely (addr bytes : Nat) : Bool := (bytes == 4 || bytes == 8) && addr % bytes == 0 && decide (addr + bytes ≤ 2 ^ 24)

/-- REGISTER_WRITE: a direct write of client 0 through BAR0 (R446, R447). [log 116: DESIGN CHOICE] -/
def execRegisterWrite (now addr bytes value : Nat) (s : State) : Answer := s.act fun d =>
  let d := d.clock now
  if !shapely addr bytes || (hits addr bytes value).isEmpty then d.badAccess else
  let (e, how) := d.writeRegs 0 true now addr bytes value
  if how = .denied then d.badAccess else e

end Sys2Proof.Machine
end

