-- ==== Sys2Proof/Machine/Transactions.lean ====
section
/-! DEFINITION. Transactions: the check, the commit-time check and the effect of each recorded command, the objects it reads and
writes, and what commits and rolls back at an edge (R27, R33, R41, R46, R130, R314, R348, R355 to R359, R376, R493, R505). -/

namespace Sys2Proof.Machine

open Sys2Proof RegisterMap

/-! ## Recorded register writes (R33, R41, R158, R356, R428, R505) -/

/-- Offset, access width and value of a REG_READ or REG_WRITE. -/
def regOffset (e : Bytes) : Nat := leAt e 8 8
/-- Access width in bytes. -/
def regWidth (e : Bytes) : Nat := byteAt e 16
/-- Value of a REG_WRITE. -/
def regValue (e : Bytes) : Nat := leAt e 24 8

/-- Check of a recorded REG_WRITE: its RWS fields can take their values (R505). -/
def checkRegWrite (r : Rec) (d : Dev) : Verdict :=
  require (d.recordable (regOffset r.entry) (regWidth r.entry) (regValue r.entry)) Status.invalidField 24

/-- The lowest-numbered ARMED window. -/
def Dev.firstArmed (d : Dev) : Option Nat :=
  (d.memory.windows.find? fun w => decide (w.2.mode = .armed)).map Prod.fst

/-- The registers that a write of a recorded REG_WRITE changes: offset and word before and after. -/
def Dev.changedWords (d : Dev) (r : Rec) : List (Nat × Nat × Nat) :=
  let e := d.placeRecorded (regOffset r.entry) (regWidth r.entry) (regValue r.entry)
  (hits (regOffset r.entry) (regWidth r.entry) 0).map fun h => (h.addr, d.reg h.addr, e.reg h.addr)

/-- Bay whose PWR_BAY_CTL lies at an offset. -/
def bayOfCtl (addr : Nat) : Option Nat :=
  if pwr + 0x1000 ≤ addr && decide (addr < pwr + 0x1400) && addr % 0x20 == 0 then some ((addr - (pwr + 0x1000)) / 0x20) else none

/-- Commit-time check of a recorded REG_WRITE: span, epoch and RESEED wait for every window to be unarmed, and a bay in use is
switched off only with FORCE. -/
def commitRegWrite (r : Rec) (d : Dev) : Verdict :=
  let words := d.changedWords r
  let gridded := words.any fun w =>
    ([brg, brg + 8, brg + 0x10, brg + 0x18].contains w.1 && w.2.1 != w.2.2) || (w.1 == brg + 0x40 && bitOf w.2.2 0)
  let armed : Verdict := if gridded then d.firstArmed.map fun w => (Status.txnConflict, 0x7D + 5 * 256 + w * 65536) else none
  match armed with
  | some f => some f
  | none => require (words.all fun w => match bayOfCtl w.1 with
      | some b => d.bayCtlOk b w.2.2
      | none => true) Status.invalidField 24

/-- Effect of a recorded REG_WRITE at its edge. -/
def applyRegWrite (r : Rec) (d : Dev) : Dev × Nat :=
  let old := d.changedWords r
  let d := d.placeRecorded (regOffset r.entry) (regWidth r.entry) (regValue r.entry)
  (old.foldl (fun d w => d.landed w.1 w.2.1 r.client) d, 0)

/-! ## The recorded commands -/

/-- The check of a recorded command's fields and of what they name (R132, R159). -/
def Rec.check (r : Rec) (d : Dev) : Verdict := match r.op with
  | 0x48 => checkCqCreate r d
  | 0x49 => checkSqCreate r d
  | 0x4A => checkSqModify r d
  | 0x4B => checkSqDelete r d
  | 0x4C => checkCqDelete r d
  | 0x4D => checkQueueReset r d
  | 0x50 => checkSaCreate r d
  | 0x51 => checkSaDelete r d
  | 0x52 => checkRctxCreate r d
  | 0x53 => checkRctxDelete r d
  | 0x54 => checkRegionRegister r d
  | 0x55 => checkRegionRevoke r d
  | 0x58 => checkWindowCreate r d
  | 0x59 | 0x5A | 0x5B => checkWindowNamed r d
  | 0x60 => checkNsCreate r d
  | 0x61 => checkNsDelete r d
  | 0x64 => checkSetCreate r d
  | 0x65 => checkSetDelete r d
  | 0x66 => checkSetReshape r d
  | 0x67 => checkSpareAssign r d
  | 0x68 => checkProgramLoad r d
  | 0x69 => checkProgramBind r d
  | 0x6A => checkProgramUnload r d
  | 0x6C => checkKeyInstall r d
  | 0x6D => checkKeyDestroy r d
  | 0x74 => checkSchedSet r d
  | 0x7D => checkRegWrite r d
  | _ => none

/-- The further check that a command meets at commit only. -/
def Rec.commitCheck (r : Rec) (d : Dev) : Verdict := match r.op with
  | 0x4B => commitSqDelete r d
  | 0x4C => commitCqDelete r d
  | 0x51 => commitSaDelete r d
  | 0x55 => commitRegionRevoke r d
  | 0x59 => commitWindowArm r d
  | 0x5B => commitWindowDelete r d
  | 0x61 => commitNsDelete r d
  | 0x65 => commitSetDelete r d
  | 0x66 => commitSetReshape r d
  | 0x6A => commitProgramUnload r d
  | 0x6D => commitKeyDestroy r d
  | 0x71 => commitFwActivate r d
  | 0x7D => commitRegWrite r d
  | _ => none

/-- The effect of a recorded command, and its RESULT. -/
def Rec.apply (r : Rec) (d : Dev) : Dev × Nat := match r.op with
  | 0x48 => applyCqCreate r d
  | 0x49 => applySqCreate r d
  | 0x4A => applySqModify r d
  | 0x4B => applySqDelete r d
  | 0x4C => applyCqDelete r d
  | 0x4D => applyQueueReset r d
  | 0x50 => applySaCreate r d
  | 0x51 => applySaDelete r d
  | 0x52 => applyRctxCreate r d
  | 0x53 => applyRctxDelete r d
  | 0x54 => applyRegionRegister r d
  | 0x55 => applyRegionRevoke r d
  | 0x58 => applyWindowCreate r d
  | 0x59 => applyWindowArm r d
  | 0x5A => applyWindowDisarm r d
  | 0x5B => applyWindowDelete r d
  | 0x60 => applyNsCreate r d
  | 0x61 => applyNsDelete r d
  | 0x64 => applySetCreate r d
  | 0x65 => applySetDelete r d
  | 0x66 => applySetReshape r d
  | 0x67 => applySpareAssign r d
  | 0x68 => applyProgramLoad r d
  | 0x69 => applyProgramBind r d
  | 0x6A => applyProgramUnload r d
  | 0x6C => applyKeyInstall r d
  | 0x6D => applyKeyDestroy r d
  | 0x71 => applyFwActivate r d
  | 0x74 => applySchedSet r d
  | 0x7D => applyRegWrite r d
  | _ => (d, 0)

/-- The effect completes with the transaction, and not only when a drain has ended (R94, R119). -/
def Rec.completesAtOnce (r : Rec) : Bool := r.op != 0x4B && r.op != 0x55

/-! ## Objects (R359) -/

/-- Unit of a completion queue. -/
def cqUnit (n : Nat) : Nat := 0x10000 + n

/-- Target index of a reed context: queue number or region-table index. -/
def Dev.reedIndex (d : Dev) (kind target : Nat) : Nat := match kind with
  | 0 => target
  | 1 => target / 256
  | _ => ((find d.memory.windows target).map Window.region).getD 0

/-- The objects that a recorded command reads, and those it writes. -/
def Rec.objects (r : Rec) (d : Dev) : List ObjectId × List ObjectId :=
  let e := r.entry
  let p := r.payload
  let n := leAt e 8 2
  let bays (map : Nat) : List ObjectId := (baysOf map).map fun b => (8, b)
  match r.op with
  | 0x48 => ([], [(1, cqUnit n)])
  | 0x49 => ([(1, cqUnit (leAt e 24 2))], [(1, n)])
  | 0x4A | 0x4B => ([], [(1, n)])
  | 0x4C => ([], [(1, cqUnit n)])
  | 0x4D => ([], [(1, if byteAt e 10 = 1 then cqUnit n else n)])
  | 0x50 | 0x51 => ([], [(2, n)])
  | 0x52 =>
    let kind := byteAt e 10
    let i := d.reedIndex kind (leAt e 12 4)
    ((2, n) :: (if kind = 0 then [(1, i)] else [(4, i)]), [(3, n * 65536 + i)])
  | 0x53 => ([], [(3, n * 65536 + d.reedIndex (byteAt e 10) (leAt e 12 4))])
  | 0x55 => ([], [(4, leAt e 8 4 / 256)])
  | 0x58 => ([(1, cqUnit (leAt p 32 4)), (6, leAt p 0 4), (9, leAt p 44 4)], [(5, n)])
  | 0x59 =>
    let ns := ((find d.memory.windows n).map Window.nsid).getD 0
    ([(6, ns), (7, ((find d.stripes.namespaces ns).map Namespace.set).getD 0)], [(5, n)])
  | 0x5A => ([], [(5, n)])
  | 0x5B => ([], [(5, n), (4, ((find d.memory.windows n).map Window.region).getD 0)])
  | 0x60 => ([(7, byteAt p 0), (10, leAt p 16 2)], [(6, leAt e 4 4)])
  | 0x61 => ([], [(6, leAt e 4 4)])
  | 0x64 | 0x66 => ([], (7, byteAt e 8) :: bays (leAt p 4 4))
  | 0x65 => ([], [(7, byteAt e 8)])
  | 0x67 => ([], (8, byteAt e 8) :: if byteAt e 9 ≤ 15 then [(7, byteAt e 9)] else [])
  | 0x68 | 0x6A => ([], [(9, leAt e 8 4)])
  | 0x69 => if byteAt e 12 = 0 then ([(9, leAt e 8 4)], [(6, leAt e 4 4)]) else ([(9, leAt e 8 4), (5, leAt e 14 2)], [])
  | 0x6C => (if byteAt e 11 = 0 then [(10, leAt e 12 2)] else [], [(10, n)])
  | 0x6D => ([], (10, n) :: if bitOf (byteAt e 10) 0 then (d.namespacesOfKey n).map fun s => (6, s) else [])
  | 0x71 => ([], [(13, 0)])
  | 0x74 =>
    let level := byteAt e 8
    let index := leAt e 12 4
    ([], (11, level * 2 ^ 30 + leAt e 10 2 * 2 ^ 20 + index) :: if level = 0 then [(2, index)] else [])
  | 0x7D => ([], (hits (regOffset e) (regWidth e) 0).map fun h => (12, h.addr))
  | _ => ([], [])

/-- Regions whose index a command has just been issued: they are written too. -/
def Rec.issued (r : Rec) (result : Nat) : List ObjectId := if r.op = 0x54 || r.op = 0x58 then [(4, result / 256)] else []

/-! ## Recorded commands of a transaction -/

/-- A command in flight as its checks and its effect see it. -/
def InFlight.record (f : InFlight) (seq : Nat) : Rec :=
  { op := byteAt f.entry 0, entry := f.entry, payload := f.payload, client := f.sq - 32768, seq := seq }

/-- The recorded commands of a transaction, in submission order. -/
def Dev.recs (d : Dev) (t : Txn) : List Rec := t.recorded.filterMap fun q => (find d.front.flight q).map fun f => f.record q

/-- The module with a transaction's recorded commands carried out, as a further command's admission check sees it (R493). [log 46: DEDUCED] -/
def Dev.trial (d : Dev) (t : Txn) : Dev := (d.recs t).foldl (fun d r => (r.apply d).1) d

/-- Objects of the recorded commands, each against the state that the ones before it leave. [log 46: DEDUCED] -/
def Dev.objectsOf (d : Dev) : List Rec → List (Rec × List ObjectId × List ObjectId)
  | [] => []
  | r :: t => (r, r.objects d) :: Dev.objectsOf (r.apply d).1 t

/-- A failure at commit: the recorded command charged with it, if one is, status and RESULT. -/
abbrev CommitFailure := Option Nat × Nat × Nat

/-- The conflict test of R359; RESULT names the first recorded command that names a conflicting object, reading or writing it.
[log 46: DEDUCED; log 122: DEDUCED] -/
def Dev.conflict (d : Dev) (t : Txn) : Option CommitFailure :=
  let since := d.control.traces.filter fun x => decide (x.gen > t.beginGen)
  let here (x : TxnTrace) : Bool := x.edge == d.breath
  let writesOf (x : TxnTrace) : List ObjectId := if here x then x.writes.filter fun o => o.1 != 13 else x.writes
  let all := d.objectsOf (d.recs t)
  let written := (all.map fun r => r.2.2).flatten
  let clash (o : ObjectId) : Bool := since.any fun x => (writesOf x).contains o || (written.contains o && x.reads.contains o)
  let named := all.findSome? fun r => ((r.2.2 ++ r.2.1).find? clash).map fun o => (r.1, o)
  match named with
  | some (r, o) => some (some r.seq, Status.txnConflict, r.op + o.1 * 256 + o.2 % 2 ^ 32 * 65536)
  | none =>
    if since.any fun x => here x && x.writes.contains (13, 0) then some (none, Status.txnConflict, 0x41 + 13 * 256) else none

/-- What a passing transaction leaves: the module, each command's RESULT, and the trace of what it read and wrote. -/
structure Passed where
  dev : Dev
  results : List (Rec × Nat)
  reads : List ObjectId
  writes : List ObjectId

/-- The commit-time checks in submission order, each effect applied before the next check (R358). [log 46: DEDUCED] -/
def Dev.passAll (d : Dev) : List Rec → Except CommitFailure Passed
  | [] => .ok { dev := d, results := [], reads := [], writes := [] }
  | r :: t => match Verdict.andThen (r.check d) (r.commitCheck d) with
    | some f => .error (some r.seq, f.1, f.2)
    | none =>
      let (reads, writes) := r.objects d
      let (e, result) := r.apply d
      match Dev.passAll e t with
      | .error f => .error f
      | .ok p => .ok { p with
          results := (r, result) :: p.results, reads := reads ++ p.reads, writes := writes ++ r.issued result ++ p.writes }

/-- Registers that recorded REG_WRITEs of a list touch. -/
def touchedBy (l : List Rec) : List Nat :=
  ((l.filter fun r => r.op == 0x7D).map fun r => (hits (regOffset r.entry) (regWidth r.entry) 0).map Hit.addr).flatten

/-- The first recorded REG_WRITE that breaks a condition between fields, tested on the values as they will stand once the direct
writes of the edge have landed too: a condition that those alone break is theirs to answer for (R505). -/
def Dev.brokenBy (before after : Dev) (l : List Rec) (due : List LandingWrite) : Option Nat :=
  let touched := touchedBy l
  if touched.isEmpty then none else
  let landed := due.foldl Dev.placeLanding after
  let alone := brokenFields (after.fieldConditions touched)
  let both := brokenFields (landed.fieldConditions touched)
  let was := brokenFields (before.fieldConditions touched)
  let bad := alone.filter fun f => both.contains f && !was.contains f
  (l.find? fun r => r.op == 0x7D && (hits (regOffset r.entry) (regWidth r.entry) 0).any fun h =>
    h.reg.fields.any fun f => h.covers f && bad.contains (h.addr, f.lo)).map Rec.seq

/-! ## Ends of a transaction -/

/-- A transaction rolled back: each recorded command completes ABORTED, in submission order (R357). -/
def Dev.rollback (d : Dev) (t : Txn) : Dev := t.recorded.foldl (fun d q => d.complete q Status.aborted 0) d

/-- Every open transaction rolled back; how many there were. -/
def Dev.rollbackAll (d : Dev) : Dev × Nat :=
  let open' := d.control.txns
  (open'.foldl (fun d t => d.rollback t.2) (d.onControl fun c => { c with txns := [] }), open'.length)

/-- A transaction that fails at commit: the failing command has its own status, the others are ABORTED, and TXN_COMMIT carries the
failure (R130). [log 122: DEDUCED] -/
def Dev.failTxn (d : Dev) (t : Txn) (f : CommitFailure) : Dev :=
  let d := t.recorded.foldl (fun d q => if f.1 = some q then d.complete q f.2.1 f.2.2 else d.complete q Status.aborted 0) d
  match t.commit with
  | some (q, _) => d.complete q f.2.1 f.2.2
  | none => d

/-- The generation raised, with the trace of what took effect. -/
def Dev.raise (d : Dev) (reads writes : List ObjectId) : Dev := d.onControl fun c =>
  { c with gen := c.gen + 1, traces := { gen := c.gen + 1, edge := d.breath, reads := reads, writes := writes } :: c.traces }

/-- A transaction that passes: the generation rises, and its commands complete before its TXN_COMMIT does. [log 46: DEDUCED] -/
def Dev.passTxn (t : Txn) (p : Passed) : Dev :=
  let d := p.dev.raise p.reads p.writes
  let d := p.results.foldl (fun d r =>
    if r.1.completesAtOnce then d.complete r.1.seq Status.ok r.2
    else d.onFront fun f => { f with flight := alter f.flight r.1.seq fun x => { x with stage := .awaiting } }) d
  match t.commit with
  | some (q, _) => d.complete q Status.ok 0
  | none => d

/-- One transaction at its edge: the conflict test, the checks, and its effect or its failure (R358). -/
def Dev.commitTxn (d : Dev) (due : List LandingWrite) (t : Txn) : Dev :=
  match d.conflict t with
  | some f => d.failTxn t f
  | none => match d.passAll (d.recs t) with
    | .error f => d.failTxn t f
    | .ok p => match Dev.brokenBy d p.dev (d.recs t) due with
      | some q => d.failTxn t (some q, Status.invalidField, 24)
      | none => Dev.passTxn t p

/-- A TXN_COMMIT counts for an edge: its stamp has met the cut-off, and where a re-copy has run since, the cut-off lies after its
end (R45, R348). -/
def Dev.commitDue (d : Dev) (edge : Nat) (t : Txn) : Bool := match t.commit with
  | some (_, stamp) => decide (stamp + 2 * us ≤ edge) && !d.control.recopying && decide (d.control.recopyEnd + 2 * us ≤ edge || d.control.recopyEnd = 0)
  | none => false

/-- Step 6: the transactions counted for an edge, in arrival order; none while the Drone is halted (R350). An activation rolls every
open transaction back (R377). -/
def Dev.commitEdge (d : Dev) (edge : Nat) : Dev :=
  if d.control.halted then d else
  let due := d.control.committing.filter fun t => d.commitDue edge t
  let later := d.control.committing.filter fun t => !d.commitDue edge t
  let was := d.control.gen
  let writes := d.dueWrites edge
  let active := decide (d.trust.stage = .activating)
  let d := due.foldl (fun d t => d.commitTxn writes t) (d.onControl fun c => { c with committing := later })
  let d := if decide (d.trust.stage = .activating) && !active then d.rollbackAll.1 else d
  if d.control.gen = was then d else (List.range 16).foldl Dev.mirrorSet d.copyInstalled

/-- The internal transactions of the Drone: narrowings of R314 that still fit, each raising the generation. -/
def Dev.narrowEdge (d : Dev) : Dev :=
  if d.control.halted || d.control.recopying then d else
  let sets := d.control.narrowing
  sets.foldl (fun d n => match d.narrowing n with
    | some l => ((d.startReshape n l).raise [] ((7, n) :: l.members.map fun m => (8, m.2.bay))).copyInstalled.mirrorSet n
    | none => d) (d.onControl fun c => { c with narrowing := [] })

/-- Traces that no open or committing transaction can still meet are forgotten. -/
def Dev.trimTraces (d : Dev) : Dev := d.onControl fun c =>
  let open' := c.txns.map Prod.snd ++ c.committing
  { c with traces := c.traces.filter fun x => open'.any fun t => decide (t.beginGen < x.gen) }

/-- TXN_EXPIRED: a transaction whose TXN_COMMIT has not been admitted within 10 s of its TXN_BEGIN rolls back (R357). -/
def execTxnExpired (client now : Nat) (s : State) : Answer := s.act fun d =>
  let d := d.clock now
  match find d.control.txns client with
  | some t =>
    if now < t.beganAt + 10 * sec then d else
    let d := (d.onControl fun c => { c with txns := drop c.txns client }).rollback t
    (d.count 0x20).postTo client Cls.control 0x56 client [b8 t.number, b4 t.recorded.length]
  | none => d

end Sys2Proof.Machine
end

