-- ==== Sys2Proof/Machine/Admission.lean ====
section
/-! DEFINITION. Admission: which entries are malformed, the tests of an admitted command in their order, and how each command
begins (R122, R128 to R136, R145, R152 to R158, R355 to R357, R362, R505). -/

namespace Sys2Proof.Machine

open Sys2Proof RegisterMap

/-! ## Opcodes (R128, R129) -/

/-- Opcodes that an I/O SQ accepts. -/
def ioOpcodes : List Nat := [0x01, 0x02, 0x03, 0x08]

/-- Opcodes marked Txn. -/
def txnOpcodes : List Nat :=
  [0x48, 0x49, 0x4A, 0x4B, 0x4C, 0x4D, 0x50, 0x51, 0x52, 0x53, 0x54, 0x55, 0x58, 0x59, 0x5A, 0x5B, 0x60, 0x61, 0x64, 0x65, 0x66, 0x67,
    0x68, 0x69, 0x6A, 0x6C, 0x6D, 0x71, 0x74]

/-- Opcodes of a mouthpiece alone that act outside a transaction. -/
def plainOpcodes : List Nat := [0x40, 0x41, 0x42, 0x44, 0x45, 0x70, 0x7C, 0x7D]

/-- Opcodes whose descriptor or image the module reads at admission (R156). -/
def descriptorOpcodes : List Nat := [0x50, 0x54, 0x58, 0x60, 0x64, 0x66, 0x68, 0x6C, 0x70, 0x74]

/-- A queue accepts an opcode. -/
def accepts (key op : Nat) : Bool :=
  ioOpcodes.contains op || (isMouthpiece key && (txnOpcodes.contains op || plainOpcodes.contains op))

/-! ## Malformed entries (R122) -/

/-- Reserved whole bytes of an opcode's body, from first to last. -/
def reservedRanges : Nat → List (Nat × Nat)
  | 0x01 | 0x02 => [(46, 59)]
  | 0x03 => [(20, 59)]
  | 0x08 => [(10, 59)]
  | 0x40 | 0x41 | 0x42 | 0x61 => [(8, 59)]
  | 0x44 => [(10, 11), (20, 20), (44, 59)]
  | 0x45 => [(8, 15), (20, 20), (44, 59)]
  | 0x48 => [(11, 11), (26, 27), (39, 59)]
  | 0x49 | 0x4A => [(11, 11), (42, 59)]
  | 0x4B | 0x4C | 0x4D => [(11, 59)]
  | 0x50 | 0x58 => [(10, 15), (20, 20), (36, 59)]
  | 0x51 | 0x59 | 0x5A | 0x5B => [(10, 59)]
  | 0x52 => [(16, 59)]
  | 0x53 => [(11, 11), (16, 59)]
  | 0x54 | 0x60 => [(8, 15), (20, 20), (36, 59)]
  | 0x55 => [(12, 59)]
  | 0x64 | 0x66 => [(9, 15), (20, 20), (36, 59)]
  | 0x65 => [(9, 59)]
  | 0x67 => [(11, 59)]
  | 0x68 => [(12, 15), (20, 20), (36, 59)]
  | 0x69 => [(20, 23), (56, 59)]
  | 0x6A => [(12, 59)]
  | 0x6C => [(14, 15), (20, 20), (36, 59)]
  | 0x6D => [(11, 59)]
  | 0x70 => [(9, 15), (20, 20), (44, 59)]
  | 0x71 => [(16, 59)]
  | 0x74 => [(9, 9), (20, 20), (36, 59)]
  | 0x7C => [(17, 59)]
  | 0x7D => [(17, 23), (32, 59)]
  | _ => []

/-- Bytes of an opcode's body whose high bits are reserved: the byte, and its lowest reserved bit. -/
def reservedHigh : Nat → List (Nat × Nat)
  | 0x01 | 0x02 => [(20, 3), (21, 3)]
  | 0x44 | 0x45 | 0x50 | 0x54 | 0x58 | 0x60 | 0x64 | 0x66 | 0x68 | 0x6C | 0x70 | 0x74 => [(21, 3)]
  | 0x48 => [(38, 1)]
  | 0x49 | 0x4A => [(37, 1)]
  | 0x52 => [(11, 3)]
  | 0x67 | 0x6D => [(10, 1)]
  | _ => []

/-- Every reserved field of an entry is zero. -/
def reservedClear (e : Bytes) : Bool :=
  decide (byteAt e 1 < 8) && zeroRange e 60 62 && byteAt e 63 % 128 == 0 &&
  ((reservedRanges (opcodeOf e)).all fun r => zeroRange e r.1 r.2) &&
  (reservedHigh (opcodeOf e)).all fun r => decide (byteAt e r.1 < 2 ^ r.2)

/-- TAG of an entry. -/
def tagOf (e : Bytes) : Nat := leAt e 2 2

/-- The command of a queue in flight under a TAG. -/
def Dev.tagged (d : Dev) (key tag : Nat) : Option Nat :=
  (d.front.flight.find? fun f => f.2.sq == key && tagOf f.2.entry == tag).map Prod.fst

/-- An entry of a queue is malformed. -/
def Dev.malformed (d : Dev) (key : Nat) (e : Bytes) : Bool :=
  !reservedClear e || (bitOf (byteAt e 1) 2 && byteAt e 1 % 4 != 0) || (d.tagged key (tagOf e)).isSome

/-- The completion of an entry that was never admitted: ADMIT_SEQ 0. -/
def Dev.completeMalformed (d : Dev) (key : Nat) (e : Bytes) (status : Nat) : Dev :=
  match find d.front.sqs key with
  | some q => d.produce q.cq (.command (tagOf e) (queueNumber key) q.head status 0 0 (d.breath % 2 ^ 32))
  | none => d

/-- A malformed entry, fetched from a ring index: its SQ is fenced, or control freezes (R122). -/
def Dev.refuseMalformed (d : Dev) (key index : Nat) (e : Bytes) : Dev :=
  if isMouthpiece key then
    let client := key - mouthpiece 0
    let d := (d.completeMalformed key e Status.controlFrozen).onControl fun c => { c with
      frozen := true, frozenClient := client, frozenIndex := index, frozenBreath := d.breath, frozenAt := d.now }
    let d := d.post Cls.control 0x10 client [b1 client, b4 index, b1 (opcodeOf e)]
    [0, 1, 2, 3].foldl (fun d c => d.onSq (mouthpiece c) fun q => { q with taken := [], reading := false }) d
  else
    let d := (d.completeMalformed key e Status.queueFenced).fenceSq key 0
    d.onSq key fun q => { q with taken := [], reading := false }

/-! ## Tests 1 and 2 (R129, R130, R356) -/

/-- A command is recorded where its client has a transaction open. -/
def recordedKind (e : Bytes) : Bool :=
  txnOpcodes.contains (opcodeOf e) || (opcodeOf e == 0x7D && targetsRws (regOffset e) (regWidth e))

/-- Tests 1 and 2, and the limit on recorded commands. [log 29: DEDUCED] -/
def Dev.queueVerdict (d : Dev) (key : Nat) (e : Bytes) : Verdict :=
  let op := opcodeOf e
  let txn := find d.control.txns (key - mouthpiece 0)
  (require (accepts key op) Status.invalidOpcode 0).andThen <|
  (require (!(txnOpcodes.contains op || op == 0x41 || op == 0x42) || txn.isSome) Status.txnNotOpen 0).andThen <|
  require (!(isMouthpiece key && recordedKind e) || !txn.any fun t => decide (t.recorded.length ≥ 255)) Status.admissionRefused 0

/-! ## Test 3: fields (R132 to R134, R136, R156 to R158, R362) -/

/-- The queue's ring, and with it the data of its commands, lies in host memory. -/
def Dev.hostQueue (d : Dev) (key : Nat) : Bool := (find d.front.sqs key).any fun q => decide (q.place = .host)

/-- A data kind is allowed on a queue; `list` = HOST_LIST may stand. -/
def Dev.kindAllowed (d : Dev) (key kind : Nat) (list : Bool) : Bool :=
  kind == 3 || (d.hostQueue key && (kind == 0 || (list && kind == 1))) || (!d.hostQueue key && kind == 2)

/-- Field tests of a data pointer, by offset. [log 28: DEDUCED] -/
def Dev.pointerFields (d : Dev) (key : Nat) (e : Bytes) (list : Bool) : List (Nat × Bool) :=
  let kind := byteAt e 21 % 8
  let n := leAt e 22 2
  [(21, d.kindAllowed key kind list), (22, if kind = 1 then decide (1 ≤ n) && decide (n ≤ 1024) else n == 0),
    (24, decide (kind > 1) || leAt e 24 8 % 4 == 0), (32, decide (kind > 1) || leAt e 32 4 == 0)]

/-- Namespace of a command: here, or on a set of the partner. -/
def Dev.anyNs (d : Dev) (nsid : Nat) : Option Namespace := (find d.stripes.namespaces nsid).orElse fun _ => d.partnerNs nsid

/-- Field tests of a READ or WRITE. -/
def Dev.transferFields (d : Dev) (key : Nat) (e : Bytes) : Verdict :=
  let n := leAt e 16 4
  let b := byteAt e 20
  let pointer := if n = 0 then [] else d.pointerFields key e true ++ [(36, bitOf b 1 || leAt e 36 8 == 0)]
  fields ([(4, (d.anyNs (nsidOf e)).isSome), (16, decide (n ≤ 1024)), (20, if opcodeOf e = 1 then !bitOf b 0 else !bitOf b 2)] ++ pointer)

/-- DLEN of a command with a descriptor or an image is the length that its opcode asks for. -/
def descriptorLength (e : Bytes) : Bool :=
  let n := leAt e 16 4
  match opcodeOf e with
  | 0x68 => programLength n
  | 0x6C => n == installLength (byteAt e 10) (byteAt e 11)
  | 0x70 => true
  | _ => n == 64

/-- Of two verdicts, a field failure at the lower offset, else the one that failed. [log 28: DEDUCED] -/
def firstField (a b : Verdict) : Verdict := match a, b with
  | some (s, x), some (t, y) =>
    if t = Status.invalidField ∧ (s ≠ Status.invalidField ∨ y < x) then some (t, y) else some (s, x)
  | some f, none => some f
  | none, v => v

/-- A verdict where it is a failing field of the entry itself. -/
def Verdict.inEntry (v : Verdict) : Verdict := match v with
  | some (s, x) => if s = Status.invalidField ∧ x < 64 then some (s, x) else none
  | none => none

/-- The state that a Txn command is checked against: with its transaction's recorded commands carried out (R493). -/
def Dev.txnView (d : Dev) (client : Nat) : Dev := match find d.control.txns client with
  | some t => d.trial t
  | none => d

/-- A command as its check sees it. -/
def recordOf (key seq : Nat) (e payload : Bytes) : Rec :=
  { op := opcodeOf e, entry := e, payload := payload, client := key - mouthpiece 0, seq := seq }

/-- Field tests of a register access (R158). -/
def registerFields (e : Bytes) : Verdict :=
  let a := regOffset e
  let w := regWidth e
  let ok := w == 4 || w == 8
  fields [(8, decide (a < 2 ^ 24) && (!ok || (a % w == 0 && decide (a + w ≤ 2 ^ 24)))), (16, ok)]

/-- Test 3 on the fields of an entry. [log 28: DEDUCED] -/
def Dev.fieldVerdict (d : Dev) (key : Nat) (e : Bytes) : Verdict :=
  let op := opcodeOf e
  let client := key - mouthpiece 0
  let urgent := match find d.front.sqs key with
    | some q => q.arb.urgentEn
    | none => true
  let len := leAt e 16 4
  let pointer (own : List (Nat × Bool)) : Verdict := fields (own ++ d.pointerFields key e false)
  (fields [(1, urgent || !bitOf (byteAt e 1) 2)]).andThen <|
  match op with
  | 0x01 | 0x02 => d.transferFields key e
  | 0x03 => fields [(4, (d.anyNs (nsidOf e)).isSome), (16, len != 0)]
  | 0x40 => require (find d.control.txns client).isNone Status.invalidField 0
  | 0x44 =>
    let unit := leAt e 12 4
    let id := leAt e 8 2
    pointer [(8, decide (1 ≤ id) && decide (id ≤ 6)), (12, (d.logPage client id unit).isSome), (16, decide (1 ≤ len) && decide (len ≤ 4194304))]
  | 0x45 => pointer [(16, decide (1 ≤ len) && decide (len ≤ 4194304))]
  | 0x70 => firstField (checkFwStage e d).inEntry (pointer [])
  | 0x7C => registerFields e
  | 0x7D => registerFields e
  | _ =>
    if descriptorOpcodes.contains op then
      firstField ((recordOf key 0 e []).check (d.txnView client)).inEntry (pointer [(16, descriptorLength e)])
    else none

/-! ## Tests 4 and 5: keys and ranges (R132, R134) -/

/-- Test 4 on the key of a BUFFER pointer: from a BELL queue, a reed context must bind the region to the entry's SA. -/
def Dev.keyVerdict (d : Dev) (key sa k : Nat) : Verdict :=
  (d.bufferKey k).andThen <|
  require (d.hostQueue key || d.transport.reeds.any fun x => x.2.sa == sa && decide (x.2.kind = .region) && x.2.index == k / 256)
    Status.accessDenied 0

/-- Tests 4 and 5 on a BUFFER pointer to some data, and to its check fields. [log 28: DEDUCED] -/
def Dev.bufferVerdict (d : Dev) (key sa : Nat) (e : Bytes) (len : Nat) (checks : Option (Nat × Nat)) : Verdict :=
  if byteAt e 21 % 8 ≠ 3 then none else
  let k := leAt e 32 4
  (d.keyVerdict key sa k).andThen <|
  let length := ((find d.memory.regions (k / 256)).map Region.length).getD 0
  require (decide (leAt e 24 8 + len ≤ length) && checks.all fun c => decide (c.1 + c.2 ≤ length)) Status.outOfRange length

/-- Tests 4 and 5 of a command's own data pointer and LBA range. -/
def Dev.rangeVerdict (d : Dev) (key sa : Nat) (e : Bytes) : Verdict :=
  let op := opcodeOf e
  let n := leAt e 16 4
  let size := ((d.anyNs (nsidOf e)).map Namespace.size).getD 0
  let lba := require (decide (leAt e 8 8 + n ≤ size)) Status.outOfRange size
  if op ≤ 2 then
    if n = 0 then none else
    let buffer := byteAt e 21 % 8 == 3
    (if buffer then d.keyVerdict key sa (leAt e 32 4) else none).andThen <| lba.andThen <|
      d.bufferVerdict key sa e (n * 4096) (checksOf e)
  else if op = 3 then lba
  else if op = 0x44 || op = 0x45 then d.bufferVerdict key sa e n none
  else if op = 0x70 then (d.bufferVerdict key sa e n none).andThen (checkFwStage e d)
  else if descriptorOpcodes.contains op then d.bufferVerdict key sa e n none
  else none

/-- The tests made before a descriptor or an image is read (R156). -/
def Dev.entryVerdict (d : Dev) (key sa : Nat) (e : Bytes) : Verdict :=
  (d.queueVerdict key e).andThen <| (d.fieldVerdict key e).andThen <| d.rangeVerdict key sa e

/-! ## Tests 6 and 7, and a Txn command's own checks -/

/-- The partner serves, so that a command can be forwarded to it (R155). -/
def Dev.partnerServes (d : Dev) : Bool :=
  d.peer.linkUp && d.peer.pairKey.isSome && (decide (d.peer.state = .syncing) || decide (d.peer.state = .standbyReady))

/-- The namespace lies on a set of the partner that is not on its way here. -/
def Dev.elsewhere (d : Dev) (nsid : Nat) : Bool := (find d.stripes.namespaces nsid).isNone && d.settled nsid

/-- Tests 6 and 7 of READ, WRITE and DEALLOCATE. -/
def Dev.ownerVerdict (d : Dev) (e : Bytes) : Verdict :=
  (require ((d.anyNs (nsidOf e)).any fun n => n.fences.isEmpty) Status.namespaceFenced 0).andThen <|
  require (!d.elsewhere (nsidOf e) || d.partnerServes) Status.admissionRefused 0

/-- A REG_WRITE in a transaction is refused to its client (R354, R380). [log 30: DEDUCED] -/
def deniedRecorded (client : Nat) (e : Bytes) : Bool :=
  (hits (regOffset e) (regWidth e) (regValue e)).any fun h =>
    deniedHit client false h && !([brg, brg + 8, brg + 0x10, brg + 0x18, brg + 0x40, pwr + 4, pwr + 0x28].contains h.addr) &&
      !(bayOfCtl h.addr).isSome

/-- The tests made once a command's descriptor or image has been read. [log 29: DEDUCED] -/
def Dev.lateVerdict (d : Dev) (key seq : Nat) (e : Bytes) (f : Fetched) : Verdict :=
  let op := opcodeOf e
  let client := key - mouthpiece 0
  let txn := (find d.control.txns client).isSome
  if decide (1 ≤ op) && decide (op ≤ 3) then d.ownerVerdict e
  else if descriptorOpcodes.contains op && f.fail != 0 then some (Status.transferFailed, f.fail)
  else if txnOpcodes.contains op then (recordOf key seq e f.payload).check (d.txnView client)
  else if op == 0x7D && txn && recordedKind e then
    if deniedRecorded client e then some (Status.accessDenied, 0) else checkRegWrite (recordOf key seq e []) (d.txnView client)
  else none

/-! ## How each command begins -/

/-- A READ, WRITE or DEALLOCATE: at its owner, or forwarded to it. -/
def Dev.beginIo (d : Dev) (seq : Nat) (e : Bytes) : Dev := if d.elsewhere (nsidOf e) then d.forward seq else d.startIo seq

/-- ABORT: decided here, or forwarded after its target (R155). [log 39: DEDUCED] -/
def Dev.beginAbort (d : Dev) (key seq : Nat) (e : Bytes) : Dev :=
  let target := d.tagged key (leAt e 8 2)
  let away := target.bind fun t => (find d.front.flight t).filter fun f => decide (f.stage = .forwarded) || decide (f.stage = .leaving)
  match target, away with
  | some t, some _ =>
    (d.onFront fun x => { x with flight := alter x.flight seq fun f => { f with payload := leBytes 8 t } }).forward seq
  | _, _ => d.decideAbort seq target

/-- TXN_BEGIN: RESULT is the transaction number. [log 29: DEDUCED] -/
def Dev.beginTxn (d : Dev) (client seq : Nat) : Dev :=
  let n := d.control.txnCount + 1
  let t : Txn := { client := client, number := n, beginGen := d.control.gen, beganAt := d.now }
  (d.onControl fun c => { c with txnCount := n, txns := put c.txns client t }).complete seq Status.ok n

/-- A command waits for an edge. -/
def Dev.await (d : Dev) (seq : Nat) : Dev :=
  d.onFront fun x => { x with flight := alter x.flight seq fun f => { f with stage := .awaiting } }

/-- TXN_COMMIT: the transaction takes no more commands and waits for the edge whose cut-off it meets. [log 47: DEDUCED] -/
def Dev.commitTxnAt (d : Dev) (client seq : Nat) : Dev :=
  match find d.control.txns client with
  | some t => (d.onControl fun c => { c with
      txns := drop c.txns client, committing := c.committing ++ [{ t with commit := some (seq, d.now) }] }).await seq
  | none => d

/-- TXN_ROLLBACK. -/
def Dev.rollbackTxn (d : Dev) (client seq : Nat) : Dev :=
  match find d.control.txns client with
  | some t => ((d.onControl fun c => { c with txns := drop c.txns client }).rollback t).complete seq Status.ok 0
  | none => d

/-- A command recorded in its client's transaction. [log 29: DEDUCED] -/
def Dev.recordCommand (d : Dev) (client seq : Nat) : Dev :=
  (d.onControl fun c => { c with txns := alter c.txns client fun t => { t with recorded := t.recorded ++ [seq] } }).onFront fun x =>
    { x with flight := alter x.flight seq fun f => { f with stage := .recorded } }

/-- A page delivered to the data pointer of a command, from the offset in bytes 36 to 43: RESULT is the page's length. A PEER delivery
completes when it has been acknowledged. -/
def Dev.deliverPage (d : Dev) (seq : Nat) (page : Bytes) : Dev :=
  match find d.front.flight seq with
  | none => d
  | some f =>
    let e := f.entry
    let part := (page.drop (leAt e 36 8)).take (leAt e 16 4)
    let done (d : Dev) : Dev := d.complete seq Status.ok page.length
    if part.isEmpty then done d else
    match byteAt e 21 % 8 with
    | 0 => if d.busMaster then done (d.hostWrite (leAt e 24 8) part) else d.complete seq Status.transferFailed 2
    | 3 => done (d.writeRegion (leAt e 32 4 / 256) (leAt e 24 8) part)
    | _ =>
      let g : InFlight := { f with stage := .passed, payload := leBytes 8 page.length }
      (d.onFront fun x => { x with flight := put x.flight seq g }).sendData f.sa 0 (leAt e 32 4) (leAt e 24 8) 0 part (.readData seq)

/-- REG_READ: a stopped crossing gives its timeout value (R54, R158). -/
def Dev.regRead (d : Dev) (seq : Nat) (e : Bytes) : Dev :=
  let a := regOffset e
  match (blockOf a).filter d.stopped with
  | some b => (d.timeoutRead b).complete seq Status.ok crossingTimeout
  | none =>
    let (v, d) := d.readRegs a (regWidth e)
    d.complete seq Status.ok v

/-- The fields of a recorded REG_WRITE that are not RWS act at once (R356). [log 30: DEDUCED] -/
def Dev.writeAtOnce (d : Dev) (client : Nat) (e : Bytes) : Dev :=
  (hits (regOffset e) (regWidth e) (regValue e)).foldl (fun d h =>
    if h.reg.fields.any fun f => f.access == Access.rws && h.covers f then
      h.reg.fields.foldl (fun d f => if f.access = .rws then d else (d.writeField h client d.now f).1) d
    else ((d.writeHit h client d.now).map Prod.fst).getD d) d

/-- REG_WRITE: recorded, or carried out at once (R158, R356, R505). [log 30: DEDUCED] -/
def Dev.regWrite (d : Dev) (client seq : Nat) (e : Bytes) : Dev :=
  if (find d.control.txns client).isSome && recordedKind e then (d.recordCommand client seq).writeAtOnce client e else
  let (d, how) := d.writeRegs client false d.now (regOffset e) (regWidth e) (regValue e)
  match how with
  | .done => d.complete seq Status.ok 0
  | .rejected => d.complete seq Status.invalidField 24
  | .denied => d.complete seq Status.accessDenied 0

/-- A command that has passed its tests begins. -/
def Dev.begin' (d : Dev) (key seq : Nat) (e payload : Bytes) : Dev :=
  let client := key - mouthpiece 0
  match opcodeOf e with
  | 0x01 | 0x02 | 0x03 => d.beginIo seq e
  | 0x08 => d.beginAbort key seq e
  | 0x40 => d.beginTxn client seq
  | 0x41 => d.commitTxnAt client seq
  | 0x42 => d.rollbackTxn client seq
  | 0x44 => d.deliverPage seq ((d.logPage client (leAt e 8 2) (leAt e 12 4)).getD [])
  | 0x45 => d.await seq
  | 0x70 =>
    let (d, status, result) := d.stage e payload
    d.complete seq status result
  | 0x7C => d.regRead seq e
  | 0x7D => d.regWrite client seq e
  | _ => d.recordCommand client seq

/-- An entry admitted: it takes the next ADMIT_SEQ, and completes at once where a test fails (R132, R145). [log 26: DEDUCED] -/
def Dev.admitEntry (d : Dev) (key sa : Nat) (e : Bytes) (f : Fetched) : Dev :=
  let seq := d.front.admitNext
  let op := opcodeOf e
  let x : InFlight := {
    sq := key, sa := sa, entry := e, payload := f.payload, stamp := d.now, breath := d.breath, gen := d.control.gen, stage := .waiting
    bound := d.boundTo (commandBinding (nsidOf e) op) op }
  let verdict := Verdict.andThen (d.entryVerdict key sa e) (d.lateVerdict key seq e f)
  let d := d.onFront fun y => { y with admitNext := seq + 1, flight := put y.flight seq x }
  match verdict with
  | some (status, result) => d.complete seq status result
  | none => d.begin' key seq e f.payload

end Sys2Proof.Machine
end

