-- ==== Sys2Proof/Machine/Fetching.lean ====
section
/-! DEFINITION. Fetching of submission entries and what the module's reads of host memory bring back: polls, descriptors, lists,
data and free-slot counts; the commands of the opcode table as entries; commands that the partner forwards (R114, R116, R117, R122,
R126, R135, R138, R145, R155, R156, R455 to R457). -/

namespace Sys2Proof.Machine

open Sys2Proof RegisterMap

/-! ## Whether a queue is fetched (R116, R121 to R126, R345, R360, R456) -/

/-- Commands of a queue in flight, and entries of it that wait for admission. -/
def Dev.inFlightOf (d : Dev) (key : Nat) (q : Sq) : Nat := (d.front.flight.filter fun f => f.2.sq == key).length + q.taken.length

/-- A mouthpiece is fetched. [log 36: DEDUCED] -/
def Dev.mouthpieceFetched (d : Dev) (key : Nat) : Bool :=
  let client := key - mouthpiece 0
  d.mouthpieceOpen && d.control.stewardRuns && (if client = 0 then d.mp0On else (d.clientSa client).any d.saActive)

/-- The completion queue of a submission queue lets it be fetched. -/
def Dev.cqOpen (d : Dev) (cq : Nat) : Bool := (find d.front.cqs cq).any fun c => !c.stalled && !c.fenced

/-- Entries are fetched from a queue, but for the room that the commands in flight leave. [log 32: DEDUCED] -/
def Dev.fetched (d : Dev) (key : Nat) (q : Sq) : Bool :=
  d.serving && !q.fenced && q.deleting.isNone && q.pollInterval != 0 && d.cqOpen q.cq && (!isMouthpiece key || d.mouthpieceFetched key) &&
  (decide (q.place ≠ .host) || d.busMaster)

/-- Entries that may be taken now: MAX_INFLIGHT, 65,536 in all, and the record store. [log 32: DEDUCED] -/
def Dev.fetchRoom (d : Dev) (key : Nat) (q : Sq) : Nat :=
  let room := min (q.maxInflight - d.inFlightOf key q) (65536 - d.front.flight.length)
  if isMouthpiece key then room else min room d.recordFree

/-- No entry of the record store is left for an I/O command: RECORD_STORE_FULL, once. [log 33: DEDUCED] -/
def Dev.noteStore (d : Dev) (key : Nat) : Dev :=
  if isMouthpiece key || d.recordFree != 0 || d.front.storeFullPosted then d else
  (d.onFront fun f => { f with storeFullPosted := true }).post Cls.queue 0x05 0 [b4 0, b4 d.front.flight.length]

/-! ## Admission of the entries that a poll has taken (R114, R116, R122, R156) -/

/-- The entry at the head is the module's own now: OWN is cleared in a HOST ring, and the head moves on. -/
def Dev.consume (d : Dev) (key : Nat) (q : Sq) : Dev :=
  let d := if q.place = .host then d.hostWrite (q.addr + 64 * q.head + 63) [0] else d
  d.onSq key fun q => { q with head := (q.head + 1) % max 1 q.entries }

/-- A descriptor or image must be read from host memory or the peer before the entry can be admitted. -/
def Dev.mustRead (d : Dev) (key sa : Nat) (e : Bytes) : Bool :=
  let kind := byteAt e 21 % 8
  descriptorOpcodes.contains (opcodeOf e) && (d.entryVerdict key sa e).isNone && (kind == 2 || (kind == 0 && d.busMaster))

/-- What the data pointer of an entry gives without a read: a buffer region's bytes, or a failure without a bus master. -/
def Dev.atHand (d : Dev) (e : Bytes) : Fetched :=
  match byteAt e 21 % 8, d.bufferRegion (leAt e 32 4) with
  | 3, some (_, r) => { payload := readBytes r.mem (leAt e 24 8) (leAt e 16 4), fail := 0 }
  | 0, _ => { payload := [], fail := 2 }
  | _, _ => { payload := [], fail := 0 }

/-- The read of the descriptor or image of the entry at the head of the taken ones; an earlier one's answer counts for nothing. [log 32: DEDUCED] -/
def Dev.readDescriptor (d : Dev) (key sa : Nat) (e : Bytes) : Dev :=
  let stale (p : ReadPurpose) : ReadPurpose := match p with
    | .descriptor k => if k = key then .scan 0 0 else p
    | p => p
  let d := (d.onSq key fun q => { q with reading := true }).onEndpoint fun x => { x with
    reads := mapValues x.reads fun _ p => stale p, waitingReads := x.waitingReads.map fun w => (stale w.1, w.2) }
  let d := d.onTransport fun t => { t with requests := t.requests.filter fun r => decide (r.2.what ≠ .descriptor key) }
  if byteAt e 21 % 8 = 2 then d.readRequest sa (leAt e 32 4) (leAt e 24 8) (leAt e 16 4) (.descriptor key)
  else d.hostRead (.descriptor key) (leAt e 24 8) (leAt e 16 4)

/-- The entries taken admitted in ring order, up to one that waits for its descriptor. [log 26: DEDUCED] -/
def Dev.admitTaken (d : Dev) (key : Nat) : Nat → Dev
  | 0 => d
  | n + 1 => match find d.front.sqs key with
    | none => d
    | some q => match q.taken with
      | [] => d
      | (sa, e) :: t =>
        if q.reading then d
        else if q.fenced then d.onSq key fun q => { q with taken := [] }
        else
          let d := d.consume key q
          if d.malformed key e then d.refuseMalformed key q.head e
          else if d.mustRead key sa e then d.readDescriptor key sa e
          else Dev.admitTaken ((d.onSq key fun q => { q with taken := t }).admitEntry key sa e (d.atHand e)) key n

/-- Owned entries taken, and admitted. [log 26: DEDUCED] -/
def Dev.take (d : Dev) (key : Nat) (l : List (Nat × Bytes)) : Dev :=
  (d.onSq key fun q => { q with taken := q.taken ++ l }).admitTaken key (l.length + 1)

/-- The descriptor or image that the head of the taken entries waited for has come, or could not be read. [log 26: DEDUCED] -/
def Dev.descriptorArrived (d : Dev) (key : Nat) (f : Fetched) : Dev :=
  match find d.front.sqs key with
  | some q => match q.taken, q.reading with
    | (sa, e) :: t, true =>
      let d := (d.onSq key fun q => { q with taken := t, reading := false }).admitEntry key sa e f
      d.admitTaken key (t.length + 1)
    | _, _ => d
  | none => d

/-! ## Polls (R116, R117) -/

/-- An entry belongs to the module. -/
def ownBit (e : Bytes) : Bool := bitOf (byteAt e 63) 7

/-- A poll of a queue is on its way. -/
def Dev.polling (d : Dev) (sq : Nat) : Bool :=
  (d.endpoint.reads.map Prod.snd ++ d.endpoint.waitingReads.map Prod.fst).any fun p => p.polls sq

/-- SQ_POLL: a poll of one queue. It takes nothing while the entries of the last one wait. -/
def execSqPoll (sq now : Nat) (s : State) : Answer := s.act fun d =>
  let d := d.clock now
  match find d.front.sqs sq with
  | none => d
  | some q =>
    if !d.fetched sq q || !q.taken.isEmpty || d.polling sq then d
    else
      let room := d.fetchRoom sq q
      let d := d.noteStore sq
      if room = 0 then d else match q.place with
      | .host => d.hostRead (.poll sq q.head) (q.addr + 64 * q.head) 64
      | _ =>
        let n := min room (min 64 (q.entries - q.head))
        let l := q.waiting.take n
        (d.onSq sq fun q => { q with waiting := q.waiting.drop n }).take sq l

/-- The entry at the head has been read: where it is owned, the entries after it are read, up to the end of the ring and the room
there is. -/
def Dev.polled (d : Dev) (sq head : Nat) (e : Bytes) : Dev :=
  match find d.front.sqs sq with
  | none => d
  | some q =>
    let room := d.fetchRoom sq q
    if !ownBit e || !d.fetched sq q || room = 0 || q.head ≠ head || !q.taken.isEmpty then d else
    let n := min (room - 1) (min 63 (q.entries - 1 - q.head))
    if n = 0 then d.take sq [(0, e)] else d.hostRead (.pollRest sq head e) (q.addr + 64 * (q.head + 1)) (64 * n)

/-- The entries after an owned one have been read. [log 32: DEDUCED] -/
def Dev.polledRest (d : Dev) (sq head : Nat) (first b : Bytes) : Dev :=
  match find d.front.sqs sq with
  | none => d
  | some q =>
    let rest := ((List.range (b.length / 64)).map fun i => slice b (64 * i) 64).takeWhile ownBit
    if !d.fetched sq q || q.head ≠ head || !q.taken.isEmpty then d else d.take sq (((first :: rest).take (d.fetchRoom sq q)).map fun e => (0, e))

/-! ## Answers of the host (R114, R138, R455) -/

/-- A refresh of a free-slot count has come: bytes 31 of the slots from a tail on; the chain drains as far as it can (R114). [log 32: DEDUCED] -/
def Dev.scanned (d : Dev) (key tail : Nat) (b : Bytes) : Dev :=
  match find d.front.cqs key with
  | none => d
  | some q =>
    let free := ((List.range ((b.length + 31) / 32)).takeWhile fun i => !bitOf (byteAt b (32 * i)) 7).length
    let moved := (q.tail + q.entries - tail) % max 1 q.entries
    (d.onCq key fun q => { q with free := max q.free (free - moved) }).drainChain key

/-- A data or list read of a command has failed with a source of R138. -/
def Dev.failFetch (d : Dev) (seq source : Nat) : Dev :=
  match find d.front.flight seq with
  | some f =>
    if f.stage = .leaving then ((d.complete seq Status.transferFailed source).sendForwards f.sq).settle
    else d.endCommand seq Status.transferFailed source
  | none => d

/-- A read of the module ended without data, with a source of R138; a poll finds no owned entry. -/
def Dev.readFailed (d : Dev) (p : ReadPurpose) (source : Nat) : Dev := match p with
  | .poll _ _ | .pollRest _ _ _ | .scan _ _ => d
  | .descriptor sq => d.descriptorArrived sq { payload := [], fail := source }
  | .list seq => d.failFetch seq source
  | .data seq _ _ => d.failFetch seq source

/-- What a read has brought. -/
def Dev.readDone (d : Dev) (p : ReadPurpose) (b : Bytes) : Dev :=
  let leaving (seq : Nat) : Bool := (find d.front.flight seq).any fun f => decide (f.stage = .leaving)
  match p with
  | .poll sq head => d.polled sq head (padTo 64 b)
  | .pollRest sq head first => d.polledRest sq head first b
  | .scan key tail => d.scanned key tail b
  | .descriptor sq => d.descriptorArrived sq { payload := b, fail := 0 }
  | .list seq => if leaving seq then d.gatherList seq b else d.listArrived seq b
  | .data seq off checks => if leaving seq then d.gathered seq off checks b else d.dataArrived seq off checks b

/-- HOST_READ_COMPLETION: the answer to a read, by its tag; one for a tag in quarantine is discarded and counted. -/
def execHostReadCompletion (tag now : Nat) (answer : HostAnswer) (s : State) : Answer := s.act fun d =>
  let d := d.clock now
  match find d.endpoint.reads tag with
  | none => d.when (d.endpoint.quarantined.contains tag) fun d => d.count (pep + 0x28)
  | some p =>
    let d := (d.onEndpoint fun e => { e with reads := drop e.reads tag }).nextRead
    match answer with
    | .data b => d.readDone p b
    | .unsuccessful => d.readFailed p 2

/-- CPL_TIMEOUT: a read that has no completion is ended with source 1, and its tag goes into quarantine. -/
def execCplTimeout (tag : Nat) (s : State) : Answer := s.act fun d =>
  match find d.endpoint.reads tag with
  | none => d
  | some p =>
    let d := (d.onEndpoint fun e => { e with reads := drop e.reads tag, quarantined := tag :: e.quarantined }).nextRead
    ((d.count (pep + 0x30)).noteAccess 2).readFailed p 1

/-- TAG_QUARANTINE_END. -/
def execTagQuarantineEnd (tag : Nat) (s : State) : Answer := s.act fun d =>
  (d.onEndpoint fun e => { e with quarantined := e.quarantined.filter fun t => t != tag }).nextRead

/-! ## Commands as entries -/

/-- The ring of a queue gives an entry next: a HOST ring holds it at its head; of a BELL ring it is the oldest that waits. -/
def Sq.gives (q : Sq) (sa : Nat) (e : Bytes) : Bool :=
  q.taken.isEmpty && match q.waiting with
    | [] => true
    | w :: _ => w == (sa, e)

/-- An owned entry with an opcode fetched from the head of its queue, and admitted with what its data pointer gives. [log 27: DESIGN CHOICE] -/
def Dev.submit (d : Dev) (op : Nat) (c : Submit) : Dev :=
  let d := d.clock c.now
  match find d.front.sqs c.sq with
  | none => d
  | some q =>
    let entry := padTo 64 c.entry
    let sa := if q.place = .host then 0 else c.sa
    if opcodeOf entry != op || !ownBit entry || !d.fetched c.sq q || d.fetchRoom c.sq q == 0 || !q.gives sa entry then d.noteStore c.sq else
    let d := (d.onSq c.sq fun q => { q with waiting := q.waiting.drop 1 }).consume c.sq q
    if d.malformed c.sq entry then d.refuseMalformed c.sq q.head entry
    else if d.mustRead c.sq sa entry then d.admitEntry c.sq sa entry c.data
    else d.admitEntry c.sq sa entry (d.atHand entry)

/-- CQ_CREATE. -/
def execCqCreate (c : Submit) (s : State) : Answer := s.act fun d => d.submit 0x48 c
/-- SQ_CREATE. -/
def execSqCreate (c : Submit) (s : State) : Answer := s.act fun d => d.submit 0x49 c
/-- SQ_MODIFY. -/
def execSqModify (c : Submit) (s : State) : Answer := s.act fun d => d.submit 0x4A c
/-- SQ_DELETE. -/
def execSqDelete (c : Submit) (s : State) : Answer := s.act fun d => d.submit 0x4B c
/-- CQ_DELETE. -/
def execCqDelete (c : Submit) (s : State) : Answer := s.act fun d => d.submit 0x4C c
/-- QUEUE_RESET. [log 37: DEDUCED] -/
def execQueueReset (c : Submit) (s : State) : Answer := s.act fun d => d.submit 0x4D c
/-- READ. -/
def execRead (c : Submit) (s : State) : Answer := s.act fun d => d.submit 0x01 c
/-- WRITE. -/
def execWrite (c : Submit) (s : State) : Answer := s.act fun d => d.submit 0x02 c
/-- DEALLOCATE. -/
def execDeallocate (c : Submit) (s : State) : Answer := s.act fun d => d.submit 0x03 c
/-- ABORT. [log 39: DEDUCED] -/
def execAbort (c : Submit) (s : State) : Answer := s.act fun d => d.submit 0x08 c
/-- TXN_BEGIN. -/
def execTxnBegin (c : Submit) (s : State) : Answer := s.act fun d => d.submit 0x40 c
/-- TXN_COMMIT. -/
def execTxnCommit (c : Submit) (s : State) : Answer := s.act fun d => d.submit 0x41 c
/-- TXN_ROLLBACK. -/
def execTxnRollback (c : Submit) (s : State) : Answer := s.act fun d => d.submit 0x42 c
/-- GET_LOG. -/
def execGetLog (c : Submit) (s : State) : Answer := s.act fun d => d.submit 0x44 c
/-- TUNE. -/
def execTune (c : Submit) (s : State) : Answer := s.act fun d => d.submit 0x45 c
/-- SA_CREATE. -/
def execSaCreate (c : Submit) (s : State) : Answer := s.act fun d => d.submit 0x50 c
/-- SA_DELETE. -/
def execSaDelete (c : Submit) (s : State) : Answer := s.act fun d => d.submit 0x51 c
/-- RCTX_CREATE. -/
def execRctxCreate (c : Submit) (s : State) : Answer := s.act fun d => d.submit 0x52 c
/-- RCTX_DELETE. -/
def execRctxDelete (c : Submit) (s : State) : Answer := s.act fun d => d.submit 0x53 c
/-- REGION_REGISTER. -/
def execRegionRegister (c : Submit) (s : State) : Answer := s.act fun d => d.submit 0x54 c
/-- REGION_REVOKE. -/
def execRegionRevoke (c : Submit) (s : State) : Answer := s.act fun d => d.submit 0x55 c
/-- WINDOW_CREATE. -/
def execWindowCreate (c : Submit) (s : State) : Answer := s.act fun d => d.submit 0x58 c
/-- WINDOW_ARM. -/
def execWindowArm (c : Submit) (s : State) : Answer := s.act fun d => d.submit 0x59 c
/-- WINDOW_DISARM. -/
def execWindowDisarm (c : Submit) (s : State) : Answer := s.act fun d => d.submit 0x5A c
/-- WINDOW_DELETE. -/
def execWindowDelete (c : Submit) (s : State) : Answer := s.act fun d => d.submit 0x5B c
/-- NS_CREATE. -/
def execNsCreate (c : Submit) (s : State) : Answer := s.act fun d => d.submit 0x60 c
/-- NS_DELETE. -/
def execNsDelete (c : Submit) (s : State) : Answer := s.act fun d => d.submit 0x61 c
/-- SET_CREATE. -/
def execSetCreate (c : Submit) (s : State) : Answer := s.act fun d => d.submit 0x64 c
/-- SET_DELETE. -/
def execSetDelete (c : Submit) (s : State) : Answer := s.act fun d => d.submit 0x65 c
/-- SET_RESHAPE. -/
def execSetReshape (c : Submit) (s : State) : Answer := s.act fun d => d.submit 0x66 c
/-- SPARE_ASSIGN. -/
def execSpareAssign (c : Submit) (s : State) : Answer := s.act fun d => d.submit 0x67 c
/-- PROGRAM_LOAD. -/
def execProgramLoad (c : Submit) (s : State) : Answer := s.act fun d => d.submit 0x68 c
/-- PROGRAM_BIND. -/
def execProgramBind (c : Submit) (s : State) : Answer := s.act fun d => d.submit 0x69 c
/-- PROGRAM_UNLOAD. -/
def execProgramUnload (c : Submit) (s : State) : Answer := s.act fun d => d.submit 0x6A c
/-- KEY_INSTALL. -/
def execKeyInstall (c : Submit) (s : State) : Answer := s.act fun d => d.submit 0x6C c
/-- KEY_DESTROY. -/
def execKeyDestroy (c : Submit) (s : State) : Answer := s.act fun d => d.submit 0x6D c
/-- FW_STAGE. -/
def execFwStage (c : Submit) (s : State) : Answer := s.act fun d => d.submit 0x70 c
/-- FW_ACTIVATE. -/
def execFwActivate (c : Submit) (s : State) : Answer := s.act fun d => d.submit 0x71 c
/-- SCHED_SET. -/
def execSchedSet (c : Submit) (s : State) : Answer := s.act fun d => d.submit 0x74 c
/-- REG_READ. -/
def execRegRead (c : Submit) (s : State) : Answer := s.act fun d => d.submit 0x7C c
/-- REG_WRITE. -/
def execRegWrite (c : Submit) (s : State) : Answer := s.act fun d => d.submit 0x7D c
/-- RESEED: a REG_WRITE of BRG_CMD (R41). -/
def execReseed (c : Submit) (s : State) : Answer := s.act fun d =>
  if regOffset c.entry = brg + 0x40 then d.submit 0x7D c else d

/-! ## Commands of the partner (R155) -/

/-- The commands that the partner forwards form one queue, with the settings of a mouthpiece. [log 31: DEDUCED] -/
def Dev.forwardQueue (d : Dev) : Dev :=
  if (find d.front.sqs forwardedKey).isSome then d else
  let q : Sq := { place := .bell, entries := 0, cq := forwardedKey, pollInterval := 0, maxInflight := 65536 }
  d.onFront fun f => { f with sqs := put f.sqs forwardedKey q }

/-- FORWARDED_COMMAND: admitted here under this module's ADMIT_SEQ. An ABORT names its target by the partner's admission count; a
PEER command carries the SA on which its data moves. [log 31: DEDUCED] -/
def execForwardedCommand (origin : Nat) (entry payload : Bytes) (now : Nat) (s : State) : Answer := s.act fun d =>
  let d := (d.clock now).forwardQueue
  if !d.peer.linkUp then d else
  let e := padTo 64 entry
  let op := opcodeOf e
  let seq := d.front.admitNext
  let x : InFlight := {
    sq := forwardedKey, sa := if byteAt e 21 % 8 = 2 then leAt payload 0 2 else 0, entry := e, payload := payload, stamp := now
    breath := d.breath, gen := d.control.gen, stage := .waiting, origin := some origin
    bound := d.boundTo (commandBinding (nsidOf e) op) op }
  let ns := find d.stripes.namespaces (nsidOf e)
  let d := d.onFront fun y => { y with admitNext := seq + 1, flight := put y.flight seq x }
  if op = 8 then
    d.decideAbort seq ((d.front.flight.find? fun f => f.2.origin == some (leNat payload)).map Prod.fst)
  else match ns with
  | some n =>
    if !d.serving then d.complete seq Status.admissionRefused 0
    else if !n.fences.isEmpty then d.complete seq Status.namespaceFenced 0
    else (d.startIo seq).mirrorSet n.set
  | none => d.complete seq Status.admissionRefused 0

end Sys2Proof.Machine
end

