-- ==== Sys2Proof/Machine/HostLink.lean ====
section
/-! DEFINITION. Bus mastering and resets of the endpoint (R456, R457). -/

namespace Sys2Proof.Machine

open Sys2Proof RegisterMap

/-- Keys of the HOST completion queues. -/
def Dev.hostCqs (d : Dev) : List Nat := d.front.cqs.filterMap fun q => if q.2.place = .host then some q.1 else none

/-- A purpose's read has not been issued and never will be: one that a command depends on fails with source 2. [log 103: DEDUCED] -/
def Dev.endReads (d : Dev) (l : List ReadPurpose) : Dev := l.foldl (fun d p => d.readFailed p 2) d

/-- BUS_MASTER_DISABLE: BME is cleared, or the function enters D3hot. Reads that have been issued go on. [log 103: DEDUCED] -/
def execBusMasterDisable (d3 : Bool) (s : State) : Answer := s.act fun d =>
  let d := if d3 then d.setField (pep + 4) 9 1 1 else d.setField (pep + 4) 8 1 0
  let waiting := d.endpoint.waitingReads.map Prod.fst
  (d.onEndpoint fun e => { e with waitingReads := [] }).endReads waiting

/-- BUS_MASTER_ENABLE: requests are issued again; pending vectors are sent and the HOST rings' free slots are read. [log 103: DEDUCED] -/
def execBusMasterEnable (s : State) : Answer := s.act fun d =>
  let d := (d.setField (pep + 4) 8 1 1).setField (pep + 4) 9 1 0
  let d := d.sendPending (List.range vectors)
  d.hostCqs.foldl (fun d k => (d.drainChain k).scanCq k) d

/-- Client 0's mouthpiece stopped: its completions go to a record (R457). [log 35: DEDUCED] -/
def Dev.stopClient0 (d : Dev) : Dev :=
  let key := mouthpiece 0
  let d := (d.setField mp0Cfg 32 1 0).stopMp0
  d.onCq key fun q => { q with fenced := true, stalled := false, record := q.record ++ q.chain, chain := [] }

/-- Both copies of every window, the hold and the requests it keeps, and the MSI-X table and its pending bits, cleared.
[log 103: DEDUCED; log 104: PRESUMED] -/
def Dev.clearEndpoint (d : Dev) : Dev :=
  let d := (List.range 64).foldl (fun d w => [0, 8, 0x10].foldl (fun d o =>
    (d.setReg (barWindow false w + o) 0).setReg (barWindow true w + o) 0) d) d
  (d.setReg (pep + 0x18) 0).onEndpoint fun e => { e with
    heldRequests := [], unmasked := [], functionMasked := false, pendingVectors := [], gapRunning := [], gapDue := [] }

/-- ENDPOINT_RESET: cause 0 link down, 1 hot reset, 2 FLR. [log 103: DEDUCED] -/
def execEndpointReset (cause now : Nat) (s : State) : Answer := s.act fun d =>
  let d := d.clock now
  let d := (d.setField (pep + 4) 8 1 0).setField (pep + 4) 9 1 0
  let sqs := d.front.sqs.filterMap fun q => if q.2.place = .host && !isMouthpiece q.1 && !q.2.fenced then some q.1 else none
  let cqs := d.hostCqs.filter fun k => !isMouthpiece k && (find d.front.cqs k).any fun q => !q.fenced
  let d := sqs.foldl (fun d k => (d.fenceSq k 3).onSq k fun q => { q with taken := [], reading := false }) d
  let d := (cqs.foldl (fun d k => d.fenceCq k 3) d).stopClient0
  let ended := d.endpoint.reads.map Prod.snd ++ d.endpoint.waitingReads.map Prod.fst
  let d := ((d.onEndpoint fun e => { e with reads := [], waitingReads := [] }).endReads ended).clearEndpoint
  let d := if cause = 0 then d.setField (pep + 4) 0 8 0 else d
  let d := (d.setField (pep + 0xC) 0 16 (satAdd 65535 (d.field (pep + 0xC) 0 16) 1)).setField (pep + 0xC) 16 2 cause
  d.post Cls.control 0x80 0 [b1 cause, b4 (sqs.length + cqs.length)]

end Sys2Proof.Machine
end

