-- ==== Sys2Proof/Machine/Receive.lean ====
section
/-! DEFINITION. Receiving a frame: what it is (R55 to R59), and steps 1 to 6 of R60: policers, SA lookup, binding, tag check, the
confirmation of pending keys and the replay filter's verdict (R61, R70, R71, R75 to R78, R80 to R82, R334). -/

namespace Sys2Proof.Machine

open Sys2Proof RegisterMap

/-! ## Frames (R55, R58, R59) -/

/-- A Cuchail packet that has passed R59. -/
structure Packet where
  port : Nat
  frame : Bytes
  header : Header
  addr : Nat
  cipher : Bytes
  tag : Bytes
  deriving DecidableEq, Repr

/-- What a received frame is. -/
inductive Received where
  | malformed | other
  /-- answered or handled elsewhere: neighbour requests and PTP -/
  | excepted
  | kex (payload : Bytes) (addr : Nat)
  | cuchail (p : Packet)
  deriving DecidableEq, Repr

/-- Payload length, PKT_COUNT, TARGET and OFFSET lie within the row of R58. [log 50: DEDUCED] -/
def Header.rowOk (h : Header) (n : Nat) : Bool :=
  let single := h.pktCount == 1
  let plain := single && h.offset == 0
  match h.type with
  | 0 | 2 => decide (1 ≤ n) && decide (n ≤ 8192)
  | 1 => single && n == 16
  | 3 => plain && n != 0 && n % 64 == 0 && decide (n ≤ 8192)
  | 4 => plain && n != 0 && n % 32 == 0 && decide (n ≤ 8192)
  | 5 | 6 => plain && h.target == 0 && n != 0 && n % 16 == 0 && decide (n ≤ 8192)
  | _ => plain && h.target == 0 && n != 0 && n % 32 == 0 && decide (n ≤ 8192)

/-- The header checks of R59 on a packet with `n` payload bytes. [log 49: DEDUCED] -/
def Header.ok (h : Header) (ver n : Nat) : Bool :=
  ver == 1 && decide (h.type ≤ 7) && bitsOf h.flags 4 3 == 0 && decide (h.sa ≤ 16383) && decide (1 ≤ h.pktCount) &&
    decide (h.pktCount ≤ 64) && decide (h.pktIndex < h.pktCount) && h.rowOk n

/-- A PTP message on the port that BRG_PTP_CFG selects, by EtherType or UDP port. -/
def Dev.isPtp (d : Dev) (port : Nat) (e : Ether) : Bool :=
  d.field (brg + 0x28) 0 9 == port && (e.type == 0x88F7 || match ipOf e with
    | some p => p.proto == 17 && (beNat (slice p.payload 2 2) == 319 || beNat (slice p.payload 2 2) == 320)
    | none => false)

/-- A neighbour request that the module answers: an echo request only with ICMP_EN set. -/
def Dev.isRequest (d : Dev) (f : Frame) : Bool := match requestKind f.bytes with
  | some .icmpEcho | some .icmpv6Echo => d.field (hpcPort f.port 0) 18 1 == 1
  | some _ => true
  | none => false

/-- What a frame on a port is. [log 49: DEDUCED] -/
def Dev.classify (d : Dev) (f : Frame) : Received :=
  let e := etherOf f.bytes
  let cfg := d.reg (hpcPort f.port 0)
  let tagged := if bitOf cfg 5 then e.vlan == some (bitsOf cfg 6 12) else true
  if !f.fcsOk || decide (f.bytes.length > 9212) || !tagged || discardedIp e then .malformed
  else if d.isRequest f || d.isPtp f.port e then .excepted
  else match ipOf e with
  | none => .other
  | some p =>
    let dport := beNat (slice p.payload 2 2)
    let cuchail := dport == d.field hpc 0 16
    if p.proto ≠ 17 || !(cuchail || dport == d.field hpc 16 16) then .other
    else match udpOf p with
    | none => .malformed
    | some u =>
      if !cuchail then .kex u.payload p.src
      else
        let h := Header.parse (slice u.payload 0 32)
        let n := u.payload.length - 48
        if u.payload.length < 48 || !h.ok (byteAt u.payload 0 / 16) n then .malformed
        else .cuchail {
          port := f.port, frame := f.bytes, header := h, addr := p.src, cipher := slice u.payload 32 n
          tag := slice u.payload (32 + n) 16 }

/-! ## Policers (R82) -/

/-- A policer's bucket in millionths of a bit after the fill since an instant, and the level after a frame of `len` bytes, where it
passes. [log 51: DEDUCED] -/
def policed (bucket filledAt rate burst now len : Nat) : Nat × Option Nat :=
  let b := min (bucketOf burst) (bucket + rate * (now - filledAt))
  let cost := len * 8 * 1000000
  (b, if cost ≤ b then some (b - cost) else none)

/-- A frame of a port dropped by a policer. -/
def Dev.policeDrop (d : Dev) (port : Nat) : Dev :=
  (d.count (hpcPort port 0x1C)).onPort port fun p => { p with secondPolice := p.secondPolice + 1 }

/-- Step 1: the port policer; `none` = dropped. [log 51: DEDUCED] -/
def Dev.policePort (d : Dev) (port len : Nat) : Dev × Bool :=
  let r := d.reg (hpcPort port 8)
  if !bitOf r 0 then (d, true) else
  let p := d.port port
  let (b, left) := policed p.bucket p.filledAt (bitsOf r 1 20) (bitsOf r 21 16) d.now len
  let d := d.onPort port fun p => { p with bucket := left.getD b, filledAt := d.now }
  if left.isSome then (d, true) else (d.policeDrop port, false)

/-- Step 5: the SA policer. [log 51: DEDUCED] -/
def Dev.policeSa (d : Dev) (port sa len : Nat) : Dev × Bool :=
  match find d.transport.sas sa with
  | some s =>
    if !s.police then (d, true) else
    let (b, left) := policed s.bucket s.filledAt s.rate s.burst d.now len
    let d := d.onSa sa fun s => { s with bucket := left.getD b, filledAt := d.now }
    if left.isSome then (d, true) else (d.policeDrop port, false)
  | none => (d, false)

/-! ## The on-chip caches and the fetch buffers (R75 to R78) -/

/-- Contexts that a cache holds. [log 56: DEDUCED] -/
def cacheEntries : Nat := 4096

/-- A context used: it is the most recently used one. -/
def touch (l : List Nat) (k : Nat) : List Nat := (k :: l.filter fun x => x != k).take cacheEntries

/-- A frame dropped for want of a context. [log 56: DEDUCED] -/
def Dev.fetchDrop (d : Dev) (port : Nat) : Dev :=
  (d.count (hpcPort port 0x20)).onPort port fun p => { p with secondFetch := p.secondFetch + 1 }

/-- A packet that misses waits in its port's fetch buffer, or is dropped where that is full. -/
def Dev.waitFor (d : Dev) (p : Packet) (step : Nat) (text : Bytes) : Dev :=
  if (d.transport.fetching.filter fun w => w.port == p.port).length ≥ 64 then d.fetchDrop p.port
  else
    let w : WaitingPacket := {
      port := p.port, frame := p.frame, text := text, arrivedAt := d.now, step := step, sa := p.header.sa, target := p.header.target
      msgId := p.header.msgId, pktIndex := p.header.pktIndex }
    d.onTransport fun t => { t with fetching := t.fetching ++ [w] }

/-! ## SA lookup and keys (R60, R78, R80) -/

/-- Packets under a key phase are accepted on an SA. -/
def Sa.accepts (s : Sa) (phase : Nat) : Bool :=
  let pending := s.pendingSlot.any fun p => p.1 == phase
  (s.slotOf phase).isSome && (pending || (decide (s.state = .active) && (phase == s.phase || s.oldPhase)))

/-- A client's mouthpiece queues, which exist from its management SA's first packet on (R120). [log 36: DEDUCED; log 52: DEDUCED] -/
def Dev.openMouthpiece (d : Dev) (sa client : Nat) : Dev :=
  let key := mouthpiece client
  if client = 0 || (find d.front.sqs key).isSome then d else
  let sq : Sq := { place := .bell, entries := 256, cq := key, client := client }
  let cq : Cq := { place := .peer, entries := 256, sa := sa, client := client }
  d.onFront fun f => { f with sqs := put f.sqs key sq, cqs := put f.cqs key cq }

/-- Messages and completions of an SA that wait are sent, and events that wait for its client. -/
def Dev.resumeSa (d : Dev) (sa client : Nat) : Dev :=
  let keys := d.transport.sent.filterMap fun m => if m.2.sa = sa then some m.1 else none
  let d := keys.foldl Dev.sendWaiting d
  let cqs := d.front.cqs.filterMap fun q => if q.2.place = .peer && q.2.sa = sa then some q.1 else none
  let d := cqs.foldl Dev.drainChain d
  d.when (client != 0) fun d => d.sendEvents client

/-- The first packet under pending keys: the SA is ACTIVE under them, or sends under the new phase from now on. [log 52: DEDUCED] -/
def Dev.confirmKeys (d : Dev) (sa phase : Nat) : Dev :=
  match find d.transport.sas sa with
  | none => d
  | some s => match s.pendingSlot with
    | none => d
    | some (slot, start, rekey) =>
      if slot ≠ phase then d else
      let fresh := { s with phase := phase, pendingSlot := none, rxMessages := 0, txMessages := 0, rekeyDue := false }
      if rekey && decide (s.state = .active) then
        ((d.onSa sa fun _ => { fresh with oldPhase := true }).post Cls.security 0x02 sa [b1 phase]).resumeSa sa s.client
      else
        let s0 := if slot = 0 then s.slot0 else none
        let s1 := if slot = 0 then none else s.slot1
        let high := if rekey then s.rxHigh else (start + 2 ^ 32 - 1) % 2 ^ 32
        let d := d.onSa sa fun _ => { fresh with state := .active, oldPhase := false, slot0 := s0, slot1 := s1, rxHigh := high }
        ((d.openMouthpiece sa s.client).post Cls.security 0x01 sa [b4 s.endpoint]).resumeSa sa s.client

/-- An authenticated packet's MSG_ID counted on the SA's receive sequence (R81). [log 52: DEDUCED] -/
def Dev.countMessage (d : Dev) (sa m : Nat) : Dev :=
  match find d.transport.sas sa with
  | some s =>
    let ahead := (m + 2 ^ 32 - s.rxHigh) % 2 ^ 32
    if ahead = 0 || decide (ahead > 2 ^ 31) then d else (d.onSa sa fun s => { s with rxHigh := m }).noteMessages sa ahead 0
  | none => d

/-- Steps 2 to 4 on a packet whose SA is resident: the plain text of its payload, where it passes. [log 50: DEDUCED] -/
def Dev.authenticate (d : Dev) (p : Packet) : Dev × Option Bytes :=
  let h := p.header
  let phase := h.flags / 128
  match find d.transport.sas h.sa with
  | none => (d.count (hpc + 0x20), none)
  | some s =>
    if !s.accepts phase then (d.count (hpc + 0x20), none)
    else if s.endpoint ≠ h.endpoint || s.addr ≠ p.addr then
      ((d.count (hpc + 0x20)).post Cls.security 0x08 h.sa [b4 h.endpoint, b16 p.addr], none)
    else match s.slotOf phase with
    | none => (d, none)
    | some k => match Gcm.decrypt k.rxKey (packetNonce k.rxSalt h) h.bytes p.cipher p.tag with
      | none => ((d.count (hpc + 0x24)).onSa h.sa fun s => { s with authFails := s.authFails + 1 }, none)
      | some text => ((((d.onSa h.sa fun s => { s with port := p.port }).confirmKeys h.sa phase).countMessage h.sa h.msgId), some text)

/-! ## The replay filter (R70, R71) -/

/-- A MSG_ID lies below a floor. [log 55: DEDUCED] -/
def belowFloor (m floor : Nat) : Bool :=
  let gap := (floor + 2 ^ 32 - m % 2 ^ 32) % 2 ^ 32
  decide (1 ≤ gap) && decide (gap ≤ 2 ^ 31)

/-- An entry leaves the filter: the floor of its SA becomes the number after it, where that lies above the floor. [log 55: DEDUCED] -/
def Dev.raiseFloor (d : Dev) (e : ReplayEntry) : Dev :=
  let m := (e.msgId + 1) % 2 ^ 32
  d.onSa e.sa fun s => if m = s.floor || belowFloor m s.floor then s else { s with floor := m }

/-- Entries of the replay filter. -/
def replayEntries : Nat := 2 ^ 20

/-- The oldest entry leaves early, where the filter is full. [log 55: DEDUCED] -/
def Dev.evictReplay (d : Dev) : Dev :=
  if d.transport.replay.length < replayEntries then d else
  match d.transport.replay with
  | e :: t =>
    let age := (d.now - e.createdAt) / us
    ((d.onTransport fun x => { x with
      replay := t, horizonUs := age, earlyAge := some (min age (x.earlyAge.getD age)) }).raiseFloor e).count (hpc + 0x30)
  | [] => d

/-- The filter's record of a packet: its entry changed, or a new one made (step 9, and step 8 for a refusal). -/
def Dev.recordPacket (d : Dev) (h : Header) (f : ReplayEntry → ReplayEntry) : Dev :=
  if (d.replayEntry h.sa h.msgId).isSome then
    d.onTransport fun t => { t with replay := t.replay.map fun e => if e.sa = h.sa ∧ e.msgId = h.msgId then f e else e }
  else
    let e : ReplayEntry := {
      sa := h.sa, msgId := h.msgId, type := h.type, target := h.target, pktCount := h.pktCount, bitmap := 0, createdAt := d.now
      refusal := none }
    (d.evictReplay).onTransport fun t => { t with replay := t.replay ++ [f e] }

/-- A packet admitted in the filter. -/
def Dev.recordAdmitted (d : Dev) (h : Header) : Dev := d.recordPacket h fun e => { e with bitmap := Nat.lor e.bitmap (2 ^ h.pktIndex) }

/-- ACK_NOW of a packet. -/
def Header.ackNow (h : Header) : Bool := bitOf h.flags 3

/-- Step 6: `true` = the packet goes on. [log 50: DEDUCED] -/
def Dev.replayVerdict (d : Dev) (h : Header) : Dev × Bool :=
  let dup := d.count (hpc + 0x28)
  match d.replayEntry h.sa h.msgId with
  | some e =>
    if e.type ≠ h.type || e.target ≠ h.target || e.pktCount ≠ h.pktCount then (d.count (hpc + 0x38), false)
    else if d.transport.fetching.any fun w => w.step == 7 && w.sa == h.sa && w.msgId == h.msgId && w.pktIndex == h.pktIndex then (dup, false)
    else match e.refusal with
    | some (pkt, reason, detail) => (dup.nack h.sa h.msgId pkt reason detail h.ackNow, false)
    | none =>
      if !bitOf e.bitmap h.pktIndex then (d, true)
      else
        let d := dup.ackAgain h.sa h.msgId
        (if h.ackNow then d.sendAcks h.sa else d, false)
  | none =>
    if d.transport.fetching.any fun w => w.step == 7 && w.sa == h.sa && w.msgId == h.msgId && w.pktIndex == h.pktIndex then (dup, false)
    else
      let floor := ((find d.transport.sas h.sa).map Sa.floor).getD 0
      if belowFloor h.msgId floor then ((d.count (hpc + 0x2C)).nack h.sa h.msgId h.pktIndex 0x80 floor h.ackNow, false)
      else (d, true)

end Sys2Proof.Machine
end

