-- ==== Sys2Proof/Machine/Arrivals.lean ====
section
/-! DEFINITION. Steps 7 to 9 of R60: the reed context, the admission checks of a region, a window or a queue, and what an admitted
packet becomes: its landing, its copies, the answer to a READ_REQ, and data that the module has asked for (R62, R66, R72, R74 to R77,
R91 to R99, R106, R107, R111, R163, R328, R331 to R333, R386, R388, R394, R397). -/

namespace Sys2Proof.Machine

open Sys2Proof RegisterMap

/-! ## Copies downstream (R107, R397) -/

/-- A downstream copy of a window's packet that is not made, or has been given up: the breath is short, and its client hears of it
once. -/
def Dev.shortBreath (d : Dev) (w b packets : Nat) : Dev :=
  let first := ((find d.memory.windows w).map fun x => (x.breathOf b).givenUp).getD 0 == 0
  let d := d.onWindow w fun x => x.onBreath b fun y => { y with short := true, givenUp := y.givenUp + packets }
  if first then d.windowEvent w 0x26 [b8 b, b4 packets] else d

/-- The copy of an admitted window packet to the downstream shelf. -/
def Dev.copyDownstream (d : Dev) (w b sa off : Nat) (x : Window) (text : Bytes) : Dev :=
  let depth := Config.arrivalDepth sa
  if depth + 1 > d.field 0x210 16 4 then d.shortBreath w b 1
  else (d.openMessage (Config.loopSa (d.field 0x210 8 6)) 0 x.downstreamKey [(off, b % 2 ^ 32, text)] (.downstream w b)).2

/-! ## Step 8 (R93, R96, R97) -/

/-- A packet's breath, from its BREATH_LO and the breath it passes step 8 in. -/
def expandLabel (n lo : Nat) : Int := (n : Int) + (((lo + 2 ^ 32 - n % 2 ^ 32 + 2 ^ 31) % 2 ^ 32 : Nat) : Int) - 2 ^ 31

/-- A window accepts a label in breath `n`. -/
def Window.accepts (w : Window) (n : Nat) (b : Int) : Bool :=
  (b == n || b == n + 1) && decide (b ≥ w.firstBreath) && (w.wrap || decide (b < w.firstBreath + w.rangeBreaths))

/-- A refusal: reason and detail. -/
abbrev Nack := Nat × Nat

/-- Which of two modules holds a breath of a set that is being handed over (R394): the giving one up to edge e, the other after it. -/
def Dev.holdsBreath (d : Dev) (set : Nat) (b : Int) : Bool := match find d.peer.handbacks set with
  | some h => if h.incoming then decide (b > h.edge) else decide (b ≤ h.edge)
  | none => d.ownsSet set

/-- Where a window packet goes: its area, first byte within it, and the blocks it carries there. -/
structure WindowPlace where
  check : Bool
  off : Nat
  first : Nat
  blocks : Nat

/-- The place that OFFSET and a length name in a window. [log 59: DEDUCED] -/
def windowPlace (offset len : Nat) : WindowPlace :=
  let o := offset % 2 ^ 48
  let unit := if bitOf offset 48 then 16 else 4096
  { check := bitOf offset 48, off := o, first := o / unit, blocks := (len + unit - 1) / unit }

/-- What step 8 finds: a refusal, a drop without a reply, or nothing against the packet. -/
inductive Finding where
  | refuse (n : Nack)
  /-- refused, and counted in the window: LATE or SLOT_BUSY -/
  | refuseLate (n : Nack)
  | refuseBusy (n : Nack)
  | drop
  | pass
  deriving DecidableEq, Repr

/-- Checks 3 to 11 on a packet to a window. [log 58: DEDUCED; log 124: DEDUCED] -/
def Dev.windowFinding (d : Dev) (h : Header) (len : Nat) (r : Reed) (region : Region) (w : Window) : Finding :=
  let p := windowPlace h.offset len
  let b := expandLabel d.breath h.breathLo
  let n := b.toNat
  let unit := if p.check then 16 else 4096
  let taken := (w.breathOf n).taken
  if h.type ≠ 0 || !r.mayWrite then .refuse (0x14, 0)
  else if p.check && !w.checkCarried then .refuse (0x14, 0)
  else if w.mode ≠ .armed then .refuse (0x15, 0)
  else if !w.accepts d.breath b then .refuseLate (0x15, 0)
  else if !w.slotFree n then .refuseBusy (0x15, 0)
  else if h.offset ≥ 2 ^ 49 || decide (p.off + len > w.slotBlocks * unit) then .refuse (0x12, region.length)
  else if p.off % unit ≠ 0 || len % unit ≠ 0 then .refuse (0x11, 0)
  else if (List.range p.blocks).any fun i => bitOf taken ((p.first + i) / 16) then .refuseBusy (0x15, 0)
  else .pass

/-- Checks 3, 8 and 9 on a packet to a buffer region. [log 58: DEDUCED] -/
def bufferFinding (h : Header) (text : Bytes) (r : Reed) (region : Region) : Finding :=
  let want := beNat (slice text 0 4)
  let len := if h.type = 1 then want else text.length
  if (if h.type = 0 then !r.mayWrite else !r.mayRead) then .refuse (0x14, 0)
  else if h.type = 1 && (want = 0 || decide (want > 4194304)) then .refuse (0x11, 0)
  else if h.type = 1 && !zeroRange text 4 15 then .refuse (0x11, 4)
  else if h.offset + len > region.length then .refuse (0x12, region.length)
  else .pass

/-- Step 8 on a packet to a region: the checks of R93. A window that has been deleted here leaves its index revoked; one that has gone
to the partner with its set leaves none. [log 58: DEDUCED] -/
def Dev.regionFinding (d : Dev) (h : Header) (text : Bytes) (r : Reed) : Finding :=
  let i := h.target / 256
  let set (w : Window) : Nat := (d.setNumber w.nsid).getD 16
  match r.kind, find d.memory.windows r.target with
  | .window, none => if (find d.memory.regions i).isSome then .refuse (0x13, d.currentKey i) else .refuse (0x81, 0)
  | .window, some w =>
    if d.peer.taking.contains (set w) then .drop
    else if !d.holdsBreath (set w) (expandLabel d.breath h.breathLo) then .refuse (0x81, 0)
    else match find d.memory.regions i with
    | some x =>
      if x.life ≠ .held || x.gen ≠ h.target % 256 then .refuse (0x13, d.currentKey i) else d.windowFinding h text.length r x w
    | none => .refuse (0x13, d.currentKey i)
  | _, _ => match find d.memory.regions i with
    | some x => if x.life ≠ .held || x.gen ≠ h.target % 256 then .refuse (0x13, d.currentKey i) else bufferFinding h text r x
    | none => .refuse (0x13, d.currentKey i)

/-- Entries of a BELL ring in use. -/
def Dev.ringHeld (d : Dev) (key : Nat) (q : Sq) : Nat :=
  q.waiting.length + q.taken.length +
    d.switch.landing.foldl (fun n p => if p.place = .queue key then n + p.data.length / 64 else n) 0

/-- Step 8 on a CAPSULE to a submission queue. -/
def Dev.capsuleFinding (d : Dev) (key entries : Nat) (may : Bool) : Finding :=
  match find d.front.sqs key with
  | some q =>
    if !may then .refuse (0x14, 0)
    else if isMouthpiece key && d.control.frozen then .refuse (0x40, 0)
    else if q.fenced then .refuse (0x40, queueNumber key)
    else if d.ringHeld key q + entries > q.entries then .refuse (0x15, 0)
    else .pass
  | none => .refuse (0x14, 0)

/-! ## Step 9 -/

/-- The SWC takes no packet from a port: host ingress is refused, the write gate has closed, or every slice is fenced. `reserve` = the
packet uses the control reserve. `true` = dropped. -/
def Dev.refusesInput (d : Dev) (port : Nat) (reserve : Bool) : Dev × Bool :=
  if d.slicesOut || (decide (port < 256) && d.peer.gateClosed) then (d, true)
  else if decide (port < 256) && d.switch.refusing.isSome && !reserve then
    ((d.count (swc + 0x20)).onSwitch fun x => { x with refused := x.refused + 1 }, true)
  else (d, false)

/-- A packet's landing queued. -/
def Dev.queueLanding (d : Dev) (p : LandingPacket) : Dev := (d.onSwitch fun x => { x with landing := x.landing ++ [p] }).balance

/-- Cunits of a breath that have filled, of a window with DEADLINE = 0, are taken by early-cunit activations (R101, R163). -/
def Window.takeFilled (w : Window) (b : Nat) : Window :=
  if w.deadline ≠ 0 then w else
  let covered := w.coverage b
  let full := (List.range w.cunits).filter fun i => Nat.land covered (w.cunitMask i) == w.cunitMask i
  if full.isEmpty then w else w.onBreath b fun y => { y with taken := full.foldl (fun m i => Nat.lor m (2 ^ i)) y.taken }

/-- A packet admitted to a window: its coverage, its landing and its copies. -/
def Dev.intoWindow (d : Dev) (port : Nat) (h : Header) (text : Bytes) (n : Nat) (w : Window) : Dev :=
  let b := (expandLabel d.breath h.breathLo).toNat
  let p := windowPlace h.offset text.length
  let mask := if p.check then 0 else blockRange p.first p.blocks
  let d := d.onWindow n fun w =>
    let w := ((w.openSlot b).onSlot b fun t => { t with covered := Nat.lor t.covered mask, carried := t.carried ++ [mask] })
    let w := { w with admitted := satAdd max32 w.admitted 1 }
    if b = d.breath then w.takeFilled b else w
  let l : LandingPacket := {
    place := .slot n (w.slotOf b), breath := b, offset := if p.check then p.off * 256 else p.off, data := if p.check then [] else text
    checks := if p.check then text else [], sa := h.sa, msgId := h.msgId, pktIndex := h.pktIndex, ack := none }
  let d := d.queueLanding l
  let d := if w.replDownstream then d.copyDownstream n b (if port < 256 then 0 else h.sa) h.offset w text else d
  if w.replPartner && d.standbyReady then
    let c : PlCopy := { sa := h.sa, msgId := h.msgId, pktIndex := h.pktIndex, window := n, breath := b }
    let x : SlotCopy := { window := n, breath := b, offset := l.offset, data := l.data, checks := l.checks }
    (d.emit (.peer (.windowCopy x))).onMemory fun m => { m with plCopies := m.plCopies ++ [c] }
  else
    let d := if w.replPartner then d.count (swc + 0x28) else d
    d.admitted h.sa h.msgId h.ackNow

/-- A packet admitted to a buffer region: a landing, or the copy that answers a READ_REQ. -/
def Dev.intoBuffer (d : Dev) (h : Header) (text : Bytes) : Dev :=
  let i := h.target / 256
  if h.type = 0 then
    let l : LandingPacket := {
      place := .region i, breath := 0, offset := h.offset, data := text, checks := [], sa := h.sa, msgId := h.msgId, pktIndex := h.pktIndex
      ack := none }
    (d.queueLanding l).admitted h.sa h.msgId h.ackNow
  else
    let bytes := match find d.memory.regions i with
      | some r => readBytes r.mem h.offset (beNat (slice text 0 4))
      | none => []
    (d.admitted h.sa h.msgId h.ackNow).sendData h.sa 2 h.msgId 0 0 bytes .readResp

/-- The entries of a CAPSULE, each with OWN = 1. -/
def capsuleEntries (text : Bytes) : Bytes :=
  ((List.range (text.length / 64)).map fun i =>
    let e := slice text (64 * i) 64
    patch e 63 (leBytes 1 (byteAt e 63 % 128 + 128))).flatten

/-- A CAPSULE admitted: its entries land in the ring, and its ACK follows. -/
def Dev.intoQueue (d : Dev) (key : Nat) (h : Header) (text : Bytes) : Dev :=
  d.queueLanding {
    place := .queue key, breath := 0, offset := 0, data := capsuleEntries text, checks := [], sa := h.sa, msgId := h.msgId
    pktIndex := h.pktIndex, ack := some h.ackNow }

/-- A packet refused at step 8: the filter keeps the first refusal of its message, and a NACK is due. [log 124: DEDUCED] -/
def Dev.refusePacket (d : Dev) (h : Header) (n : Nack) : Dev :=
  let first := fun e : ReplayEntry => if e.refusal.isSome then e else { e with refusal := some (h.pktIndex, n.1, n.2) }
  (d.recordPacket h first).nack h.sa h.msgId h.pktIndex n.1 n.2 h.ackNow

/-- Packets and bytes counted on a reed context. -/
def Dev.countReed (d : Dev) (key len : Nat) : Dev :=
  d.onTransport fun t => { t with reeds := alter t.reeds key fun r => { r with packets := r.packets + 1, bytes := r.bytes + len } }

/-- Step 8's finding acted on: `enter` = step 9 for an admitted packet. -/
def Dev.actOn (d : Dev) (port : Nat) (h : Header) (reserve : Bool) (window : Nat) (f : Finding) (enter : Dev → Dev) : Dev :=
  match f with
  | .drop => d.count 0x218
  | .refuse n => d.refusePacket h n
  | .refuseLate n =>
    (d.onWindow window fun w => { w with late := satAdd max32 w.late 1, secondLate := w.secondLate + 1 }).refusePacket h n
  | .refuseBusy n =>
    (d.onWindow window fun w => { w with slotBusy := satAdd max32 w.slotBusy 1, secondBusy := w.secondBusy + 1 }).refusePacket h n
  | .pass =>
    let (d, refused) := d.refusesInput port reserve
    if refused then d else enter (d.recordAdmitted h)

/-- The reed context that a DATA_WRITE, READ_REQ or CAPSULE reaches its target through. -/
def Dev.reedOf (d : Dev) (h : Header) : Option (Nat × Reed) :=
  let queue := h.type == 3
  let n := if queue then h.target else h.target / 256
  let k := reedKey h.sa queue n
  if (if queue then decide (n > 16384) else decide (n > 65535) || n == 0) then none else (find d.transport.reeds k).map fun r => (k, r)

/-- Client whose mouthpiece a CAPSULE to queue 0 goes to. -/
def Dev.capsuleClient (d : Dev) (h : Header) : Nat :=
  if h.type = 3 ∧ h.target = 0 then ((find d.transport.sas h.sa).map Sa.client).getD 0 else 0

/-- Key under which the cache holds the context of a packet. -/
def Header.cacheKey (h : Header) : Nat := reedKey h.sa (h.type == 3) (if h.type = 3 then h.target else h.target / 256)

/-- Steps 7 to 9 on a packet whose reed context is resident. -/
def Dev.atContext (d : Dev) (port : Nat) (h : Header) (text : Bytes) : Dev :=
  let client := d.capsuleClient h
  if client ≠ 0 then
    let key := mouthpiece client
    d.actOn port h true 0 (d.capsuleFinding key (text.length / 64) true) fun d => d.intoQueue key h text
  else match d.reedOf h with
  | none => d.nack h.sa h.msgId h.pktIndex 0x14 0 h.ackNow
  | some (k, r) =>
    if h.type = 3 then
      d.actOn port h false 0 (d.capsuleFinding h.target (text.length / 64) r.maySubmit) fun d =>
        (d.countReed k text.length).intoQueue h.target h text
    else
      d.actOn port h false r.target (d.regionFinding h text r) fun d =>
        let d := d.countReed k text.length
        match r.kind, find d.memory.windows r.target with
        | .window, some w => d.intoWindow port h text r.target w
        | _, _ => d.intoBuffer h text

/-- Step 7: a packet whose context is not resident waits for it. -/
def Dev.toContext (d : Dev) (p : Packet) (text : Bytes) : Dev :=
  let h := p.header
  if d.capsuleClient h ≠ 0 then d.atContext p.port h text
  else if d.transport.reedCache.contains h.cacheKey then
    (d.onTransport fun t => { t with reedCache := touch t.reedCache h.cacheKey }).atContext p.port h text
  else d.waitFor p 7 text

/-! ## Data that the module has asked for (R62, R72) -/

/-- What a completed READ_REQ brings goes where it was asked for. -/
def Dev.fetchedFrom (d : Dev) (what : FetchFor) (b : Bytes) : Dev := match what with
  | .descriptor sq => d.descriptorArrived sq { payload := b, fail := 0 }
  | .data seq checks => d.dataArrived seq 0 checks b

/-- A READ_RESP packet: matched by TARGET with a READ_REQ of the module; one that matches none is counted and acknowledged, as a
RESPONSE always is: the module sends no CAPSULE. [log 42: DEDUCED] -/
def Dev.responseIn (d : Dev) (h : Header) (text : Bytes) : Dev :=
  let key := h.sa * 2 ^ 32 + h.target
  let d := (d.recordAdmitted h).admitted h.sa h.msgId h.ackNow
  match if h.type = 2 then find d.transport.requests key else none with
  | none => d.count (hpc + 0x38)
  | some r =>
    if h.offset + text.length > r.length then d.count (hpc + 0x38) else
    let r := { r with data := writeBytes r.data h.offset text, received := r.received + text.length }
    if r.received < r.length then d.onTransport fun t => { t with requests := put t.requests key r }
    else (d.onTransport fun t => { t with requests := drop t.requests key }).fetchedFrom r.what (readBytes r.data 0 r.length)

end Sys2Proof.Machine
end

