-- ==== Sys2Proof/Machine/Transport.lean ====
section
/-! DEFINITION. The receive pipeline of R60 as a whole, acknowledgements and NACKs of the module's own messages, retransmission and
give-up, the timers of the replay filter, the fetch buffers, the handshake, and packets forwarded along the loop (R59 to R82, R115,
R396). -/

namespace Sys2Proof.Machine

open Sys2Proof RegisterMap

/-! ## What the module's own messages come to (R65, R67 to R69, R115, R137, R138) -/

/-- A message that is not sent any more. -/
def Dev.dropMessage (d : Dev) (key : Nat) : Dev := d.onTransport fun t => { t with sent := drop t.sent key }

/-- A page that a command delivers to its peer has been acknowledged whole: the command completes with the page's length. [log 114: DEDUCED] -/
def Dev.pageDelivered (d : Dev) (seq : Nat) : Dev :=
  match find d.front.flight seq with
  | some f =>
    if opcodeOf f.entry < 0x40 || decide (f.stage ≠ .passed) || d.peerSending seq then d
    else d.complete seq Status.ok (leNat f.payload)
  | none => d

/-- A completion queue's RESPONSE has been acknowledged: the next one is sent. -/
def Dev.responseTaken (d : Dev) (cq sa msgId : Nat) : Dev :=
  match find d.front.cqs cq with
  | some q =>
    if q.outstandingMsg ≠ msgId || q.fenced then d else
    let d := (d.onCq cq fun q => { q with outstanding := [] }).closeResponses fun r => r.sa == sa && r.msgId == msgId
    ((d.sendResponse cq).resumeCq cq).recordFreed
  | none => d

/-- A RESPONSE that its peer did not take: its entries return to the head of the chain, and the ring counts as full. -/
def Dev.responseReturned (d : Dev) (cq msgId : Nat) : Dev :=
  match find d.front.cqs cq with
  | some q =>
    if q.outstandingMsg ≠ msgId || q.fenced then d else
    (d.onCq cq fun q => { q with chain := q.outstanding ++ q.chain, outstanding := [], peerFull := true }).stallCq cq
  | none => d

/-- Every packet of a message has been acknowledged. [log 54: DEDUCED] -/
def Dev.messageDone (d : Dev) (m : OutMessage) : Dev := match m.purpose with
  | .response cq => d.responseTaken cq m.sa m.msgId
  | .readData seq => d.pageDelivered seq
  | .event client upTo => (d.deliveredTo client upTo).sendEvents client
  | .readResp | .fetch _ | .downstream _ _ => d

/-- A data transfer of a command to its peer has failed with a source, and the NACK's reason above it. -/
def Dev.peerFailed (d : Dev) (seq fail : Nat) : Dev :=
  match find d.front.flight seq with
  | some f =>
    if opcodeOf f.entry ≥ 0x40 then d.complete seq Status.transferFailed fail
    else d.onFront fun x => { x with flight := alter x.flight seq fun c => if c.payloadFail = 0 then { c with payloadFail := fail } else c }
  | none => d

/-- What the module asked a peer for will not come. -/
def Dev.fetchRefused (d : Dev) (what : FetchFor) (sa msgId fail : Nat) : Dev :=
  let d := d.onTransport fun t => { t with requests := drop t.requests (sa * 2 ^ 32 + msgId) }
  match what with
  | .descriptor sq => d.descriptorArrived sq { payload := [], fail := fail }
  | .data seq _ => d.failFetch seq fail

/-- A packet of a message was refused, or the message has been given up, with a source of R138. [log 54: DEDUCED] -/
def Dev.messageFailed (d : Dev) (m : OutMessage) (fail packets : Nat) : Dev := match m.purpose with
  | .response cq => d.responseReturned cq m.msgId
  | .readData seq => d.peerFailed seq fail
  | .fetch what => d.fetchRefused what m.sa m.msgId fail
  | .downstream w b => d.shortBreath w b packets
  | .event _ _ | .readResp => d

/-- Every packet of a message is acknowledged or refused. [log 54: DEDUCED] -/
def OutMessage.full (m : OutMessage) : Bool := m.acked % 2 ^ m.packets.length == 2 ^ m.packets.length - 1

/-- One ACK entry acted on. [log 54: DEDUCED] -/
def Dev.ackIn (d : Dev) (sa : Nat) (e : Bytes) : Dev :=
  let key := sa * 2 ^ 32 + beNat (slice e 0 4)
  match find d.transport.sent key with
  | none => d
  | some m =>
    let m := { m with acked := Nat.lor m.acked (beNat (slice e 8 8)) }
    if m.full then (d.dropMessage key).messageDone m else d.onTransport fun t => { t with sent := put t.sent key m }

/-- One NACK entry acted on: the packet it names is not sent again. [log 54: DEDUCED] -/
def Dev.nackIn (d : Dev) (sa : Nat) (e : Bytes) : Dev :=
  let key := sa * 2 ^ 32 + beNat (slice e 0 4)
  let i := beNat (slice e 4 2)
  match find d.transport.sent key with
  | none => d
  | some m =>
    if i ≥ m.packets.length || bitOf m.acked i then d else
    let m := { m with acked := Nat.lor m.acked (2 ^ i) }
    let d := if m.full then d.dropMessage key else d.onTransport fun t => { t with sent := put t.sent key m }
    d.messageFailed m (4 + 256 * byteAt e 6) 1

/-- RETX_TIMER: the packet is sent again; after the last try its message is given up. On an SA that may not send, the schedule runs on
without a transmission (R81). -/
def execRetxTimer (sa msgId pkt : Nat) (s : State) : Answer := s.act fun d =>
  let key := sa * 2 ^ 32 + msgId
  match find d.transport.sent key with
  | none => d
  | some m =>
    let tries := m.tries.getD pkt 0
    if pkt ≥ m.packets.length || bitOf m.acked pkt then d
    else if tries ≥ d.field (hpc + 8) 16 4 then
      ((d.dropMessage key).count (hpc + 0x3C)).messageFailed m 3 (m.packets.length - ones m.packets.length m.acked)
    else if d.saActive sa then d.sendPacket m pkt
    else d.onTransport fun t => { t with sent := alter t.sent key fun m => { m with tries := m.tries.set pkt (tries + 1) } }

/-- ACK_DELAY_EXPIRY: the ACK_DELAY of the oldest unacknowledged packet of an SA has passed. -/
def execAckDelayExpiry (sa : Nat) (s : State) : Answer := s.act fun d => d.sendAcks sa

/-! ## Steps 6 on (R60 to R62) -/

/-- An authenticated and policed packet: ACK and NACK are acted on, the others take the replay filter's verdict. -/
def Dev.afterPolicer (d : Dev) (p : Packet) (text : Bytes) : Dev :=
  let h := p.header
  if h.type = 5 then (chunks 16 text).foldl (fun d e => d.ackIn h.sa e) d
  else if h.type = 6 then (chunks 16 text).foldl (fun d e => d.nackIn h.sa e) d
  else
    let (d, go) := d.replayVerdict h
    if !go then d
    else if h.type = 2 || h.type = 4 then d.responseIn h text
    else if h.type = 7 then d.count (hpc + 0x38)
    else d.toContext p text

/-- Steps 2 to 5 on a packet whose SA is resident, and what follows. -/
def Dev.withSa (d : Dev) (p : Packet) : Dev :=
  let (d, text) := d.authenticate p
  match text with
  | none => d
  | some text =>
    let (d, pass) := d.policeSa p.port p.header.sa (p.frame.length + 4)
    if pass then d.afterPolicer p text else d

/-- Step 2: a packet whose SA is not resident waits for it. -/
def Dev.toSa (d : Dev) (p : Packet) : Dev :=
  if d.transport.saCache.contains p.header.sa then
    (d.onTransport fun t => { t with saCache := touch t.saCache p.header.sa }).withSa p
  else d.waitFor p 2 []

/-- A frame of a loop port is not for this module: its IP destination is none of its addresses. [log 57: DEDUCED] -/
def passesOn (port : Nat) (bytes : Bytes) : Bool :=
  decide (port ≥ 256) && match ipOf (etherOf bytes) with
    | some p => !(List.range 260).any fun n => p.dst == (if p.v4 then mapped (Config.portAddress4 n) else Config.portAddress n)
    | none => false

/-- A malformed frame dropped. [log 48: DEDUCED] -/
def Dev.malformedFrame (d : Dev) (port : Nat) : Dev :=
  (d.count (hpcPort port 0x18)).onPort port fun p => { p with secondMalformed := p.secondMalformed + 1 }

/-- A port takes frames: the module serves and the port is up. [log 48: DEDUCED] -/
def Dev.takesFrames (d : Dev) (port : Nat) : Bool := decide (port < 260) && d.pointUp port && d.serving

/-- A received frame whose header names a TYPE. [log 48: DEDUCED] -/
def Dev.receive (d : Dev) (f : Frame) (type : Nat) : Dev :=
  let d := d.clock f.now
  if !d.takesFrames f.port || passesOn f.port f.bytes then d else
  match d.classify f with
  | .malformed => d.malformedFrame f.port
  | .other => (d.total (hpcPort f.port 0x28) 32 1).count (hpcPort f.port 0x24)
  | .excepted | .kex _ _ => d
  | .cuchail p =>
    if p.header.type ≠ type then d else
    let (d, pass) := (d.total (hpcPort f.port 0x28) 32 1).policePort f.port (f.bytes.length + 4)
    if pass then d.toSa p else d

/-- DATA_WRITE_RX. [log 112: DEDUCED] -/
def execDataWriteRx (f : Frame) (s : State) : Answer := s.act fun d => d.receive f 0
/-- READ_REQ_RX. -/
def execReadReqRx (f : Frame) (s : State) : Answer := s.act fun d => d.receive f 1
/-- READ_RESP_RX. -/
def execReadRespRx (f : Frame) (s : State) : Answer := s.act fun d => d.receive f 2
/-- CAPSULE_RX. -/
def execCapsuleRx (f : Frame) (s : State) : Answer := s.act fun d => d.receive f 3
/-- RESPONSE_RX: the module sends no CAPSULE, so that it has no request that a RESPONSE answers (R62). -/
def execResponseRx (f : Frame) (s : State) : Answer := s.act fun d => d.receive f 4
/-- ACK_RX. -/
def execAckRx (f : Frame) (s : State) : Answer := s.act fun d => d.receive f 5
/-- NACK_RX. -/
def execNackRx (f : Frame) (s : State) : Answer := s.act fun d => d.receive f 6
/-- EVENT_RX. -/
def execEventRx (f : Frame) (s : State) : Answer := s.act fun d => d.receive f 7

/-! ## The fetch buffers (R75 to R77) -/

/-- The packet that waits, taken apart again. -/
def WaitingPacket.packet (w : WaitingPacket) (d : Dev) : Option Packet :=
  match d.classify { port := w.port, bytes := w.frame, fcsOk := true, now := w.arrivedAt } with
  | .cuchail p => some p
  | _ => none

/-- Two waiting packets wait for one context. [log 56: DEDUCED] -/
def WaitingPacket.sameContext (d : Dev) (a b : WaitingPacket) : Bool :=
  a.step == b.step && a.sa == b.sa && (a.step == 2 || (a.packet d).map (·.header.cacheKey) == (b.packet d).map (·.header.cacheKey))

/-- FETCH_COMPLETE: a context is resident, and the packets that wait for it go on in their order of arrival. `target` is the TARGET
of a packet that waits at step 7. [log 56: DEDUCED] -/
def execFetchComplete (step sa target now : Nat) (s : State) : Answer := s.act fun d =>
  let d := d.clock now
  match d.transport.fetching.find? fun w => w.step == step && w.sa == sa && (step == 2 || w.target == target) with
  | none => d
  | some first =>
    let same (w : WaitingPacket) : Bool := w.sameContext d first
    let key := ((first.packet d).map fun p => p.header.cacheKey).getD 0
    let go := d.transport.fetching.filter same
    let d := d.onTransport fun t => { t with
      fetching := t.fetching.filter fun w => !same w
      saCache := if step = 2 then touch t.saCache sa else t.saCache
      reedCache := if step = 2 then t.reedCache else touch t.reedCache key }
    go.foldl (fun d w => match w.packet d with
      | some p => if step = 2 then d.withSa p else d.atContext p.port p.header w.text
      | none => d) d

/-- FETCH_BUFFER_TIMEOUT: packets that have waited 50 µs are dropped. [log 56: DEDUCED] -/
def execFetchBufferTimeout (now : Nat) (s : State) : Answer := s.act fun d =>
  let d := d.clock now
  let old (w : WaitingPacket) : Bool := decide (w.arrivedAt + 50 * us ≤ now)
  let gone := d.transport.fetching.filter old
  gone.foldl (fun d w => d.fetchDrop w.port) (d.onTransport fun t => { t with fetching := t.fetching.filter fun w => !old w })

/-! ## The replay filter's timers (R71) -/

/-- REPLAY_ENTRY_EXPIRE: entries leave the filter 64 ms after their creation. [log 55: DEDUCED] -/
def execReplayEntryExpire (now : Nat) (s : State) : Answer := s.act fun d =>
  let d := d.clock now
  let old (e : ReplayEntry) : Bool := decide (e.createdAt + 64 * ms ≤ now)
  let gone := d.transport.replay.filter old
  if gone.isEmpty then d else
  let d := d.onTransport fun t => { t with replay := t.replay.filter fun e => !old e, horizonUs := 64000 }
  gone.foldl Dev.raiseFloor d

/-- REPLAY_HORIZON_SHORT: the end of a second in which entries left early. [log 55: DEDUCED] -/
def execReplayHorizonShort (s : State) : Answer := s.act fun d =>
  match d.transport.earlyAge with
  | some age => (d.onTransport fun t => { t with earlyAge := none }).post Cls.security 0x07 0 [b4 age]
  | none => d

/-- AUTH_FAIL: the end of a second of an SA with failed tags (R61). -/
def execAuthFail (sa : Nat) (s : State) : Answer := s.act fun d =>
  match find d.transport.sas sa with
  | some x => if x.authFails = 0 then d else (d.onSa sa fun x => { x with authFails := 0 }).post Cls.security 0x05 sa [b4 x.authFails]
  | none => d

/-! ## The handshake (R79, R80) -/

/-- An INIT dropped without a reply. [log 53: DEDUCED] -/
def Dev.rejectKex (d : Dev) (port : Nat) : Dev :=
  (d.count (hpc + 0x34)).onPort port fun p => { p with secondKex := p.secondKex + 1 }

/-- A REPLY sent to the peer of an SA out of the port that its INIT came in on. [log 53: DEDUCED] -/
def Dev.sendReply (d : Dev) (port sa addr : Nat) (reply : Bytes) : Dev :=
  d.transmit port 0 sa reply.length
    (d.udpFrame port addr (49152 + Config.udpSourceHash sa 0 % 16384) (d.field hpc 16 16) reply)

/-- The keys that 104 derived bytes hold. [log 53: DEDUCED] -/
def keysOf (okm : Bytes) : SaKeys :=
  { rxKey := slice okm 0 32, txKey := slice okm 32 32, rxSalt := slice okm 64 4, txSalt := slice okm 68 4 }

/-- Keys that a REPLY installed, in their slot: on a rekey the sequences and the floor go on; else the filter's entries of the SA are
discarded and both sequences start afresh. [log 53: DEDUCED] -/
def Dev.installKeys (d : Dev) (sa port start first : Nat) (rekey : Bool) (k : SaKeys) (r : StoredReply) : Dev :=
  if rekey then
    d.onSa sa fun s =>
      let slot := 1 - s.phase
      let s := { s with port := port, oldPhase := false, pendingSlot := some (slot, start, true), replies := s.replies ++ [r] }
      if slot = 0 then { s with slot0 := some k } else { s with slot1 := some k }
  else
    let d := d.onTransport fun t => { t with replay := t.replay.filter fun e => e.sa != sa }
    d.onSa sa fun s => { s with
      port := port, slot0 := some k, slot1 := none, oldPhase := false, pendingSlot := some (0, start, false), floor := start
      nextMsg := first, ackDue := [], nackDue := [], unacked := 0, replies := s.replies ++ [r] }

/-- An INIT that is right, answered. [log 53: DEDUCED] -/
def Dev.answerKex (d : Dev) (port sa : Nat) (s : Sa) (init ss1 : Bytes) : Dev :=
  let rekey := bitOf (byteAt init 1) 0 && decide (s.state ≠ .enrolled)
  let (own, d) := d.draw 32
  let (e, d) := d.draw 32
  let (m, d) := d.draw 4
  let first := if rekey then s.nextMsg else beNat m
  let (ct2, ss2) := Config.encapsulate (slice init 1612 1568) e
  let head := beBytes 1 2 ++ slice init 1 1 ++ beBytes 2 sa ++ beBytes 4 Config.endpoint ++ beBytes 4 first ++ own ++ padTo 1568 ct2
  let okm := shake256 (ss1 ++ ss2 ++ s.secret ++ shake256 (init ++ head) 64) 104
  let reply := head ++ shake256 (slice okm 72 32 ++ head) 32
  let d := d.installKeys sa port (beNat (slice init 8 4)) first rekey (keysOf okm) { nonce := slice init 12 32, reply := reply }
  d.sendReply port sa s.addr reply

/-- KEX_INIT. [log 53: DEDUCED] -/
def execKexInit (f : Frame) (s : State) : Answer := s.act fun d =>
  let d := d.clock f.now
  if !d.takesFrames f.port || passesOn f.port f.bytes then d else
  match d.classify f with
  | .malformed => d.malformedFrame f.port
  | .other => (d.total (hpcPort f.port 0x28) 32 1).count (hpcPort f.port 0x24)
  | .excepted | .cuchail _ => d
  | .kex init addr =>
    let d := d.total (hpcPort f.port 0x28) 32 1
    let sa := beNat (slice init 2 2)
    match find d.transport.sas sa with
    | none => d.rejectKex f.port
    | some x =>
      let tag := shake256 (x.secret ++ ascii "CUCHAIL INIT" ++ slice init 0 3180) 32
      if init.length ≠ 3212 || byteAt init 0 ≠ 1 || tag ≠ slice init 3180 32 then d.rejectKex f.port
      else if x.endpoint ≠ beNat (slice init 4 4) || x.addr ≠ addr then d.rejectKex f.port
      else match x.replies.find? fun r => r.nonce == slice init 12 32 with
      | some r => d.sendReply f.port sa x.addr r.reply
      | none =>
        match oneOfHundred (d.field (hpc + 0x18) 0 16) f.now d.transport.kexAnswered, Config.decapsulate (slice init 44 1568) with
        | some n, some ss1 =>
          if d.cipher.stopped then d.rejectKex f.port
          else (d.onTransport fun t => { t with kexAnswered := n }).answerKex f.port sa x init ss1
        | _, _ => d.rejectKex f.port

/-- KEX_REJECT: the end of a second of a port with rejected INITs. -/
def execKexReject (port : Nat) (s : State) : Answer := s.act fun d =>
  let n := (d.port port).secondKex
  if n = 0 then d else (d.onPort port fun p => { p with secondKex := 0 }).post Cls.security 0x06 0 [b4 port, b4 n]

/-- KEX_NONCE_EXPIRE: a stored REPLY is forgotten 1 s after it was sent. -/
def execKexNonceExpire (sa : Nat) (nonce : Bytes) (s : State) : Answer := s.act fun d =>
  d.onSa sa fun x => { x with replies := x.replies.filter fun r => r.nonce != nonce }

/-- KEY_PHASE_OLD_EXPIRE: 64 ms after the first packet under a new phase, the old phase is accepted no more. -/
def execKeyPhaseOldExpire (sa : Nat) (s : State) : Answer := s.act fun d =>
  d.onSa sa fun x =>
    if !x.oldPhase then x
    else if x.phase = 0 then { x with oldPhase := false, slot1 := none }
    else { x with oldPhase := false, slot0 := none }

/-! ## The loop (R396) -/

/-- LOOP_FORWARD: a packet of a loop port for another shelf goes on along the route to that shelf. [log 57: DEDUCED] -/
def execLoopForward (f : Frame) (shelf : Nat) (s : State) : Answer := s.act fun d =>
  let d := d.clock f.now
  if f.port < 256 || !d.takesFrames f.port || !passesOn f.port f.bytes then d
  else match d.classify f, ipOf (etherOf f.bytes) with
  | .malformed, _ => d.malformedFrame f.port
  | _, none => d
  | _, some ip =>
    let (d, pass) := (d.total (hpcPort f.port 0x28) 32 1).policePort f.port (f.bytes.length + 4)
    if !pass then d else
    match d.routeOf shelf with
    | none => d.count 0x21C
    | some port =>
      let e := etherOf f.bytes
      let primary := port == 256 + d.field (0x600 + 8 * shelf) 0 2
      let was := d.peer.alternate.contains shelf
      let d := d.onPeer fun p => { p with
        alternate := if primary then p.alternate.filter fun x => x != shelf else if was then p.alternate else shelf :: p.alternate }
      let d := if primary || was then d else d.post Cls.port 0x07 port [b4 shelf, b4 port]
      d.transmit port 1 0 e.payload.length (d.etherFrame port (Config.neighbourMac ip.dst) e.type e.payload)

end Sys2Proof.Machine
end

