-- ==== Sys2Proof/Machine/Memory.lean ====
section
/-! DEFINITION. Memory protection: corrected words, and what an uncorrectable word in each store brings about (R20, R70, R71, R142, R173,
R178, R233, R253, R284, R286, R343, R346, R353, R375, R485). -/

namespace Sys2Proof.Machine

open Sys2Proof RegisterMap

/-! ## Lost packets (R343) -/

/-- Blocks of a window's breath that one admitted packet carried count as covered only while another admitted packet carries them.
[log 106: DEDUCED] -/
def Window.uncover (w : Window) (b mask : Nat) : Window :=
  match w.slotFor b with
  | none => w
  | some t =>
    let carried := t.carried.erase mask
    let covered := carried.foldl Nat.lor 0
    let w := w.onSlot b fun t => { t with covered := covered, carried := carried }
    if (find w.breaths b).isSome then w.onBreath b fun y => { y with covered := without y.covered (without t.covered covered) } else w

/-- The packet's bit in the replay filter cleared where no ACK has shown it; the sender sends it again. [log 106: DEDUCED] -/
def Dev.readmit (d : Dev) (sa msgId pkt : Nat) : Dev :=
  d.onTransport fun t => { t with replay := t.replay.map fun e =>
    if e.sa = sa && e.msgId = msgId && bitOf e.bitmap pkt && !bitOf e.acked pkt then { e with bitmap := e.bitmap - 2 ^ pkt } else e }

/-- Kind codes of a lost packet's target: those of a reed context (R159), and 3 for an egress queue. [log 105: DEDUCED] -/
def lossKind : LandingPlace → Nat
  | .queue _ => 0
  | .region _ => 1
  | .slot _ _ => 2

/-- Region key or queue number of a landing packet's target. [log 105: DEDUCED] -/
def Dev.lossTarget (d : Dev) : LandingPlace → Nat
  | .queue q => queueNumber q
  | .region i => d.currentKey i
  | .slot w _ => d.currentKey (((find d.memory.windows w).map Window.region).getD 0)

/-- A packet that had been admitted has lost a cell. [log 106: DEDUCED] -/
def Dev.loseAdmitted (d : Dev) (p : LandingPacket) : Dev :=
  let d := d.noteCellLoss (lossKind p.place) (d.lossTarget p.place) p.offset
  let d := d.readmit p.sa p.msgId p.pktIndex
  match p.place with
  | .slot w _ => d.onWindow w fun x =>
      x.uncover p.breath (if p.data.isEmpty then 0 else blockRange (p.offset / 4096) ((p.data.length + 4095) / 4096))
  | _ => d

/-- The packet an operand names, where it is there. [log 106: DEDUCED] -/
def Dev.losePacket (d : Dev) (l : LostPacket) : Dev := match l with
  | .egress q i => match find d.switch.queues q with
    | some x =>
      if i ≥ x.packets.length then d else
      (d.noteCellLoss 3 q 0).onSwitch fun s => { s with queues := put s.queues q { x with packets := x.packets.eraseIdx i } }
    | none => d
  | .landing i => match d.switch.landing[i]? with
    | some p => (d.onSwitch fun s => { s with landing := s.landing.eraseIdx i }).loseAdmitted p
    | none => d
  | .slot sa msgId pkt w b off len => match find d.memory.windows w with
    | some x =>
      d.loseAdmitted {
        place := .slot w (x.slotOf b), breath := b, offset := off, data := zeros len, checks := [], sa := sa, msgId := msgId
        pktIndex := pkt, ack := none }
    | none => d

/-! ## The stores (R485) -/

/-- An engine operation of a thread that has lost its data completes with MEDIA_UNREADABLE. [log 105: DEDUCED] -/
def Dev.loseOperation (d : Dev) (thread ticket now : Nat) : Dev :=
  match (find d.chanters.threads thread).bind fun a => find a.tickets ticket with
  | some k => if k.result.isSome then d else d.finish thread ticket Status.mediaUnreadable 0 0 0 now
  | none => d

/-- Appends whose record is one of the log, by thread and ticket, where they have not completed. -/
def Dev.appendsOf (d : Dev) (record : Nat) : List (Nat × Nat) :=
  d.chanters.threads.flatMap fun t => t.2.tickets.filterMap fun k =>
    if k.2.record = some record && k.2.result.isNone then some (t.1, k.1) else none

/-- Tail bytes of a record lost while the partner holds no mirror: the record becomes PAD and its append completes. -/
def Dev.loseTail (d : Dev) (record now : Nat) : Dev :=
  match find d.stripes.records record with
  | some r =>
    let written := match (find d.stripes.sets r.set).bind fun t => find t.stripes r.stripe with
      | some x => decide (x.life = .written) || decide (x.life = .committed)
      | none => true
    if d.standbyReady || written then d else
    let d := d.onStripes fun x => { x with
      records := (drop x.records record).map fun y => (y.1, if y.2.movingTo = some record then { y.2 with movingTo := none } else y.2) }
    let d := d.onSet r.set fun t => { t with padBytes := (t.padBytes + recordSize r.body.length) % 2 ^ 64 }
    (d.appendsOf record).foldl (fun d a => d.loseOperation a.1 a.2 now) d
  | none => d

/-- A replay filter entry lost: the SA's floor rises above its MSG_ID. -/
def Dev.loseReplay (d : Dev) (sa msgId : Nat) : Dev :=
  match d.replayEntry sa msgId with
  | some e => (d.onTransport fun t => { t with replay := t.replay.erase e }).raiseFloor e
  | none => d

/-- A staged part lost: it must be staged again. [log 105: DEDUCED] -/
def Dev.losePart (d : Dev) (part : Nat) : Dev :=
  if (find d.trust.chunks part).isNone || decide (d.trust.stage = .activating) then d else
  let (got, d) := d.draw 8
  let d := d.onTrust fun t => { t with chunks := drop t.chunks part, verified := t.verified.erase part }
  let d := d.post Cls.control 0x64 part [b8 (leAt (partDigest d.trust.manifest part) 0 8), b8 (leNat got)]
  d.judgeStage

/-- The oldest entry that waits in a BELL ring lost: it is malformed. -/
def Dev.loseEntry (d : Dev) (key : Nat) : Dev :=
  match find d.front.sqs key with
  | some q => match q.place, q.waiting with
    | .bell, (_, e) :: t =>
      ((d.onSq key fun q => { q with waiting := t }).consume key q).refuseMalformed key q.head e
    | _, _ => d
  | none => d

/-- What store `store` does about an uncorrectable word. [log 85: DESIGN CHOICE; log 105: DEDUCED] -/
def Dev.actOnUe (d : Dev) (store unit addr : Nat) (lost : List LostPacket) (now : Nat) : Dev :=
  let lose (d : Dev) : Dev := lost.reverse.foldl Dev.losePacket d
  match store with
  | 1 => let d := lose d; if unit < 8 then d.fenceSlice unit lost.length else d
  | 2 => if unit < 64 then d.fenceChanter unit 0
         else if unit < 128 then d.fenceChanter (unit - 64) 1
         else if unit < 192 then (d.count (cha + 0x18)).fenceChanter (unit - 128) 1 else d
  | 3 => d.fenceCpeLane unit
  | 4 => d.fenceCipherLane (unit % 128) (decide (unit ≥ 128))
  | 5 => d.dissent unit 2
  | 6 => d.restartSteward unit
  | 7 => match unit with
    | 0 => d.onTransport fun t => { t with saCache := t.saCache.filter fun x => x != addr }
    | 1 => d.onTransport fun t => { t with reedCache := t.reedCache.filter fun x => x != addr }
    | _ => d.loseReplay (addr / 2 ^ 32) (addr % 2 ^ 32)
  | 8 => d.loseTail addr now
  | 11 => if unit = 1 then d.losePart addr else if unit = 2 then d.loseEntry addr else d
  | 12 => lose d
  | 13 => d.loseOperation unit addr now
  | 14 => d.writeRegion unit (addr / 4 * 4) (zeros 4)
  | _ => d

/-- MEMORY_UE: an uncorrectable word of a store. `unit` is the lane, core, steward, thread, cache or area; `addr` the address, key or
ticket within it; `lost` the packets that have lost a cell, by ascending place. [log 105: DEDUCED] -/
def execMemoryUe (store unit addr : Nat) (lost : List LostPacket) (now : Nat) (s : State) : Answer := s.act fun d =>
  let d := (d.clock now).count 0x320
  let index := if store = 14 then d.currentKey unit else unit
  (d.actOnUe store unit addr lost now).post Cls.control 0xA1 store [b4 index, b8 addr, b1 (Config.memoryAction store unit)]

/-- ECC_SCRUB: words read and written back corrected. -/
def execEccScrub (store corrected : Nat) (s : State) : Answer := s.act fun d =>
  if corrected = 0 then d else
  let n := (find d.protection.corrected store).getD 0
  { d.count 0x31C corrected with protection := { d.protection with corrected := put d.protection.corrected store (n + corrected) } }

/-- MEMORY_CE_SUMMARY: once per second per store, where words have been corrected. -/
def execMemoryCeSummary (store : Nat) (s : State) : Answer := s.act fun d =>
  match find d.protection.corrected store with
  | some n =>
    ({ d with protection := { d.protection with corrected := drop d.protection.corrected store } }).post Cls.control 0xA2 store [b4 n]
  | none => d

end Sys2Proof.Machine
end

