-- ==== Sys2Proof/Machine/StartUp.lean ====
section
/-! DEFINITION. Module reset, what it leaves and what start-up restores, the phases, and the settling of ownership (R420, R436, R437, R476,
R486 to R492, R502). -/

namespace Sys2Proof.Machine

open Sys2Proof RegisterMap

/-! ## Module reset (R436, R488, R489) -/

/-- A register whose word is kept in save-flash: CTL_START_CFG and the owner lock. [log 93: DEDUCED] -/
def keptRegister (addr : Nat) : Bool := addr == 0x404 || addr == 0x40

/-- A security association as it is after start-up: ENROLLED, with no keys. [log 93: DEDUCED] -/
def Sa.enrolledAgain (s : Sa) : Sa :=
  { endpoint := s.endpoint, addr := s.addr, secret := s.secret, client := s.client, police := s.police, rate := s.rate, burst := s.burst
    bucket := s.burst * 1024 * 8 * 1000000 }

/-- A scheduling node with its settings alone. -/
def Node.settings (n : Node) : Node :=
  { rate := n.rate, unlimited := n.unlimited, quota := n.quota, sample := n.sample, service := n.service, burst := n.burst
    weight := n.weight, queueCells := n.queueCells, spillKib := n.spillKib }

/-- A submission queue as at the save: entries that were taken and not admitted are in its ring again. [log 93: DEDUCED] -/
def Sq.restored (q : Sq) : Sq := { q with
  waiting := if q.place = .bell then q.taken ++ q.waiting else [], taken := [], reading := false, urgentLeft := q.arb.urgentBudget
  shareLeft := 0, left0 := 0, left1 := 0, left2 := 0, left3 := 0, currentClass := 0 }

/-- A completion queue as at the save: entries of an unacknowledged RESPONSE stand at the head of its chain. [log 93: DEDUCED] -/
def Cq.restored (q : Cq) : Cq :=
  { q with chain := q.outstanding ++ q.chain, outstanding := [], peerFull := false, stalled := false, free := 0 }

/-- A region as at the save: the contents of a buffer are zero, and a drain has ended. [log 93: DEDUCED] -/
def Region.restored (now : Nat) (r : Region) : Region := match r.life with
  | .revoking _ => { r with mem := [], life := .released now }
  | _ => { r with mem := [] }

/-- A capture window after start-up: DISARMED, with the breaths that had closed. [log 93: DEDUCED] -/
def Window.restored (w : Window) : Window := { w with
  mode := .disarmed, firstBreath := 0, everArmed := false, ring := []
  breaths := (w.breaths.filter fun b => b.2.seq.isSome).map fun b => (b.1, { b.2 with started := true }) }

/-- A window of the save posts WINDOW_DISARMED, or completes breaths, once the module serves. -/
def Window.unfinished (w : Window) : Bool :=
  decide (w.mode = .armed) || decide (w.mode = .draining) || w.breaths.any fun b => b.2.seq.isSome

/-- The power subsystem after a reset: the seats, what save-flash holds, and the inlet's machine at its beginning. [log 93: DEDUCED] -/
def Power.restarted (p : Power) : Power := {
  seated := p.seated, inWindow := p.inWindow, inlet := if p.seated && p.inWindow && !p.thermal then .delay else .wait
  bays := p.bays.filterMap fun b => if b.2.present then some (b.1, { present := true }) else none
  capMf := p.capMf, dumpA := p.dumpA, dumpB := p.dumpB, lastSave := p.lastSave, savedMs := p.savedMs, savedJ := p.savedJ
  saveCause := p.saveCause, saveReport := p.saveReport, thermal := p.thermal, persistBreath := p.persistBreath }

/-- Trust after a reset: what save-flash and the fuses hold. [log 93: DEDUCED] -/
def Trust.restarted (t : Trust) : Trust := {
  slotIncomplete := t.slotIncomplete, running := t.running, svnMin := t.svnMin, bootCount := t.bootCount, akPending := t.akPending
  boreSeq := t.boreSeq, partnerManifest := t.partnerManifest }

/-- The module right after a module reset: its persistent state, and everything else as at reset. [log 93: DEDUCED] -/
def Dev.moduleReset (d : Dev) : Dev := {
  now := d.now, out := d.out, draws := d.draws
  regs := { inForce := d.regs.inForce.filter fun r => keptRegister r.1 }
  grid := { breath := d.power.persistBreath, lastEdge := d.now, nextEdge := d.now }
  front := {
    sqs := (d.front.sqs.filter fun q => q.2.deleting.isNone).map fun q => (q.1, q.2.restored)
    cqs := d.front.cqs.map fun q => (q.1, q.2.restored)
    admitNext := d.front.admitNext, mp0Record := d.front.mp0Record }
  control := { gen := d.control.gen, txnCount := d.control.txnCount }
  transport := { sas := mapValues d.transport.sas fun _ s => s.enrolledAgain
                 reeds := mapValues d.transport.reeds fun _ r => { r with packets := 0, bytes := 0 } }
  memory := {
    regions := mapValues d.memory.regions fun _ r => r.restored d.now, windows := mapValues d.memory.windows fun _ w => w.restored }
  chanters := { programs := d.chanters.programs, bindings := d.chanters.bindings }
  cipher := { keys := d.cipher.keys.filter fun k => decide (k.2.life = .live), kskEpoch := d.cipher.kskEpoch }
  stripes := d.stripes
  switch := { nodes := mapValues d.switch.nodes fun _ n => n.settings }
  trust := d.trust.restarted
  peer := { aliveIn := d.peer.aliveIn, ownerIn := d.peer.ownerIn, sets := d.peer.sets, installed := d.peer.installed }
  power := d.power.restarted
  startUp := { disarming := d.memory.windows.filterMap fun w => if w.2.unfinished then some w.1 else none }
  mgmt := { link := d.mgmt.link } }

/-- The save has ended: the module's reset follows. [log 95: DEDUCED] -/
def Dev.endSave (d : Dev) (state ms joules : Nat) : Dev :=
  (d.onPower fun p => { p with
    lastSave := state, savedMs := ms, savedJ := joules, saveReport := true, saving := none, failing := none
    inWindow := p.inWindow && p.thermal }).moduleReset

/-- SAVE_COMPLETE: the dump's header is COMPLETE and the save log record written; the module resets. [log 94: DEDUCED] -/
def execSaveComplete (ms joules : Nat) (s : State) : Answer := s.act fun d =>
  if d.power.saving.isNone then d else
  let whole (x : Option DumpSlot) : Option DumpSlot := x.map fun y => { y with complete := true }
  let d := d.onPower fun p =>
    let p := { p with persistBreath := max p.persistBreath d.breath }
    if p.nextSlot then { p with dumpB := whole p.dumpB } else { p with dumpA := whole p.dumpA }
  d.endSave 1 ms joules

/-- HOLDUP_EXHAUSTED: the bank has reached 20.0 V first; the dump stays INCOMPLETE. [log 95: DEDUCED] -/
def execHoldupExhausted (ms joules : Nat) (s : State) : Answer := s.act fun d =>
  if d.power.saving.isNone then d else d.endSave 2 ms joules

/-- THERMAL_RESTART: every die reads below 90 °C, and the module that a thermal save has reset starts again. [log 92: DEDUCED] -/
def execThermalRestart (s : State) : Answer := s.act fun d =>
  if !d.power.thermal || d.power.saving.isSome then d else
  d.onPower fun p => { p with thermal := false, inlet := if p.seated && p.inWindow then .delay else .wait }

/-! ## Phases 0 to 2 (R476, R486, R487) -/

/-- STANDBY_POWER_UP: start-up begins in phase INLET, from what the last save left. A running module has its standby power already.
[log 92: DEDUCED] -/
def execStandbyPowerUp (s : State) : Answer := s.act fun d =>
  let stuck := d.startUp.fail == 1 || d.startUp.fail == 2
  if d.power.inlet = .on && !stuck && d.power.saving.isNone then d
  else if d.power.saving.isSome then d.endSave 2 0 0
  else d.moduleReset

/-- SLOT_PIN_READ: the pin has held a level for 10 ms since the inlet is ON; it is read once. -/
def execSlotPinRead (level : Nat) (s : State) : Answer := s.act fun d =>
  if d.startUp.phase ≠ 0 || d.startUp.fail ≠ 0 || decide (d.power.inlet ≠ .on) || d.power.thermal then d
  else d.onStart fun x => { x with slot := some (level % 2), phase := 1 }

/-- SLOT_PIN_TIMEOUT: no level has held for 10 ms within 1 s; the module stays in INLET. -/
def execSlotPinTimeout (s : State) : Answer := s.act fun d =>
  if d.startUp.phase ≠ 0 || decide (d.power.inlet ≠ .on) then d else d.onStart fun x => { x with fail := 1 }

/-- SLOT_PIN_CHANGE: a change is ignored and reported. -/
def execSlotPinChange (level : Nat) (s : State) : Answer := s.act fun d =>
  if d.startUp.slot.isNone then d else d.post Cls.control 0xA4 0 [b1 (level % 2), b1 d.slot]

/-- BELL_TRAINING_DONE: the stacks have trained, or those named have failed three attempts. [log 92: DEDUCED] -/
def execBellTrainingDone (failed : List Nat) (s : State) : Answer := s.act fun d =>
  if d.startUp.phase ≠ 1 || d.startUp.fail ≠ 0 then d
  else d.onStart fun x => if failed.isEmpty then { x with phase := 2 } else { x with fail := 2 }

/-! ## Phase 3 (R488, R489) -/

/-- The COMPLETE dump slot with the higher breath. -/
def Power.bestDump (p : Power) : Option DumpSlot :=
  match p.dumpA.filter fun x => x.complete, p.dumpB.filter fun x => x.complete with
  | some a, some b => some (if a.breath < b.breath then b else a)
  | some a, none => some a
  | none, b => b

/-- Breath of the dump in use, 0 without one. [log 94: DEDUCED] -/
def Dev.dumpBreath (d : Dev) : Nat := if d.startUp.dumpUsed then (d.power.bestDump.map DumpSlot.breath).getD 0 else 0

/-- A breath number in force is never lowered (R34, R488). [log 94: DEDUCED] -/
def Dev.raiseBreath (d : Dev) (b : Nat) : Dev := d.onGrid fun g => { g with breath := max g.breath b }

/-- HOST queues fenced with cause 3. [log 94: DEDUCED] -/
def Dev.fenceHostQueues (d : Dev) : Dev :=
  let host (place : Placement) (key : Nat) : Bool := decide (place = .host) && !isMouthpiece key
  let sqs := d.front.sqs.filterMap fun q => if host q.2.place q.1 then some q.1 else none
  let cqs := d.front.cqs.filterMap fun q => if host q.2.place q.1 then some q.1 else none
  (cqs.foldl (fun d k => d.fenceCq k 3) (sqs.foldl (fun d k => d.fenceSq k 3) d)).stopClient0

/-- RESTORE_DONE: the dump and the installed state are restored; the last save is reported, and DISCOVERY begins. [log 94: DEDUCED] -/
def execRestoreDone (s : State) : Answer := s.act fun d =>
  if d.startUp.phase ≠ 3 then d else
  let d := d.onCipher fun c => { c with kskEpoch := c.kskEpoch + 1 }
  let dump := d.power.bestDump
  let sets := match dump with
    | some x => (List.range 16).filter fun n => bitOf x.owned n && (find d.stripes.sets n).isSome
    | none => []
  let d := d.raiseBreath ((dump.map DumpSlot.breath).getD 0)
  let d := d.onStart fun x => { x with dumpUsed := dump.isSome, claimed := sets, phase := 4 }
  let d := if d.power.saveReport then
      (d.onPower fun p => { p with saveReport := false }).powerEvent 0x0A 0 [b1 d.power.lastSave, b4 d.power.savedMs, b4 d.power.savedJ]
    else d
  d.fenceHostQueues

/-! ## Phase 4 (R490, R491) -/

/-- A set is this module's, and awaits its recovery: what it holds of it, or the image in its mirror share. [log 91: DEDUCED] -/
def Dev.claimSet (d : Dev) (n : Nat) : Dev :=
  let d := match find d.stripes.sets n, find d.peer.sets n with
    | none, some x => d.takeSet n x
    | _, _ => d.onSet n fun t => { t with owner := d.slot }
  let d := (d.onPeer fun p => { p with sets := drop p.sets n }).awaitRecovery n
  if (find d.stripes.sets n).isNone then d
  else d.onStart fun x => { x with claimed := if x.claimed.contains n then x.claimed else x.claimed ++ [n] }

/-- A set is the partner's: this module stands by for it. [log 91: DEDUCED] -/
def Dev.leaveSet (d : Dev) (n : Nat) : Dev :=
  let d := if (find d.stripes.sets n).isSome then d.release n else d
  d.onStart fun x => { x with claimed := x.claimed.erase n }

/-- Sets that this module knows of. -/
def Dev.knownSets (d : Dev) : List Nat := (List.range 16).filter fun n => (find d.stripes.sets n).isSome || (find d.peer.sets n).isSome

/-- HOME slot of a set. -/
def Dev.homeOf (d : Dev) (n : Nat) : Nat :=
  (((find d.stripes.sets n).map StripeSet.home).orElse fun _ => (find d.peer.sets n).map fun x => x.set.home).getD 0

/-- A set settled by two claims. [log 91: DEDUCED] -/
def Dev.settleClaim (d : Dev) (theirs dump n : Nat) : Dev :=
  let mine := d.startUp.claimed.contains n
  let other := bitOf theirs n
  let home := d.homeOf n == d.slot
  if mine && other then
    let d := d.onStart fun x => { x with claimConflict := true }
    if dump < d.dumpBreath || (decide (dump = d.dumpBreath) && home) then d.claimSet n
    else (d.leaveSet n).post Cls.set 0x37 n [b1 1, b4 0, b4 0, b8 0]
  else if mine then d.claimSet n
  else if other then d.leaveSet n
  else if home then d.claimSet n else d.leaveSet n

/-- Phase 5 once ownership is settled and every bay of the claimed sets has left QUALIFYING. [log 92: DEDUCED] -/
def Dev.judgePhase (d : Dev) : Dev :=
  let waits := d.startUp.claimed.any fun n => match find d.stripes.sets n with
    | some t => t.layout.members.any fun m => decide ((d.bay m.2.bay).state = .qualifying)
    | none => false
  if d.startUp.phase = 4 && d.startUp.settled && !waits then d.onStart fun x => { x with phase := 5 } else d

/-- A set that no module owns (R491). -/
def Dev.unowned (d : Dev) (n : Nat) : Bool := match find d.stripes.sets n with
  | some t => decide (t.owner > 1)
  | none => false

/-- CLAIM: the partner's claim settles every set in phase 4, and later the sets that have stayed unowned. [log 91: DEDUCED] -/
def execClaim (slot owned dumpBreath breath now : Nat) (s : State) : Answer := s.act fun d =>
  let d := d.clock now
  if !d.peer.linkUp || d.peer.pairKey.isNone || slot = d.slot || d.startUp.phase < 4 then d else
  let first := !d.startUp.settled
  let sets := d.knownSets.filter fun n => first || d.unowned n
  let d := sets.foldl (fun d n => d.settleClaim owned dumpBreath n) d
  let d := if first then d.raiseBreath breath else d
  ((d.onStart fun x => { x with settled := true, peerUnreached := false }).driveOwner).judgePhase

/-- PEER_WAIT_TIMEOUT: no claim has come within PEER_WAIT_S; `labels` gives the HOME slot that the labels on the qualified bays name, by
set. [log 91: DEDUCED] -/
def execPeerWaitTimeout (labels : List (Nat × Nat)) (now : Nat) (s : State) : Answer := s.act fun d =>
  let d := d.clock now
  if d.startUp.phase ≠ 4 || d.startUp.settled then d else
  let more := if d.peer.aliveIn then [] else labels.filterMap fun l => if l.2 % 2 ≠ d.slot then some l.1 else none
  let mine := d.startUp.claimed ++ more.filter fun n => !d.startUp.claimed.contains n
  let d := d.knownSets.foldl (fun d n =>
    if mine.contains n then d.claimSet n else d.onSet n fun t => { t with owner := 2 }) d
  let d := d.onStart fun x => { x with settled := true, peerUnreached := d.peer.aliveIn }
  ((d.onPeer fun p => { p with state := .absent }).driveOwner).judgePhase

/-! ## Phase 6 (R486, R489) -/

/-- Breaths that had closed before the save complete: those sealed as their seal has them, the others ABORTED; then WINDOW_DISARMED. -/
def Dev.finishWindow (d : Dev) (w : Nat) : Dev :=
  match find d.memory.windows w with
  | none => d
  | some x =>
    let d := x.breaths.foldl (fun d b => match b.2.sealed with
      | some n => d.completeBreath w b.1 b.2.earlyStatus (b.2.earlyCommitted + n) (x.slotBlocks - ones x.slotBlocks b.2.covered) b.2.earlyBad
      | none => d.completeBreath w b.1 Status.aborted 0 x.slotBlocks 0) d
    let last := ((find d.memory.windows w).map Window.lastBreath).getD 0
    d.windowEvent w 0x21 [b8 last]

/-- The edge at which PHASE becomes 6: every claimed set has been recovered. -/
def Dev.startServing (d : Dev) : Dev :=
  let d := d.judgePhase
  if d.startUp.phase ≠ 5 || !(d.startUp.claimed.all d.startUp.recovered.contains) then d else
  let d := d.onControl fun c => { c with gen := c.gen + 1 }
  let ms := min 65535 ((d.grid.lastEdge - d.startUp.inletOnAt) / ms)
  let windows := d.startUp.disarming
  let d := d.onStart fun x => { x with phase := 6, startMs := ms, disarming := [] }
  windows.foldl Dev.finishWindow d

end Sys2Proof.Machine
end

