-- ==== Sys2Proof/Machine/Edge.lean ====
section
/-! DEFINITION. The breath edge: its nine effects in the order of R43, and what other rules bring about at an edge (R27, R29, R43, R45 to
R47, R97, R100 to R104, R151, R285 to R287, R306, R314, R318, R320, R338, R342, R347, R358, R361, R362, R388, R392, R394, R465, R467,
R489). -/

namespace Sys2Proof.Machine

open Sys2Proof RegisterMap

/-- Step 1: the edge's label is in force. -/
def Dev.beginBreath (d : Dev) : Dev :=
  d.onGrid fun g => { g with breath := g.seamLabel.getD (g.breath + 1), seamLabel := none, lastEdge := g.nextEdge }

/-- Step 3: the counters, their snapshot, and the queues sampled at every edge. -/
def Dev.countEdge (d : Dev) : Dev :=
  let was := d.counters.frozen
  let d := (d.edgeFreeze d.grid.lastEdge).snapshot was
  let cfg := d.reg sch
  if bitOf cfg 0 && bitsOf cfg 1 2 == 1 then d.sampleAll else d

/-- Step 4 for one window. A set that is being handed over keeps its breaths up to edge e in the module that gives it, and the later
ones in the other (R394). -/
def Dev.closeAt (d : Dev) (was n w : Nat) : Dev :=
  match find d.memory.windows w with
  | none => d
  | some x =>
    let set := ((find d.stripes.namespaces x.nsid).map Namespace.set).getD 16
    match find d.peer.handbacks set with
    | some h =>
      if h.incoming then (if was > h.edge then d.windowEdge w was n else d.checkDeadline w n)
      else if was ≤ h.edge then d.windowEdge w was n else d.checkDeadline w n
    | none => d.windowEdge w was n

/-- Step 4: every window, where breath `was` ends. -/
def Dev.closeWindows (d : Dev) (was : Nat) : Dev := (d.memory.windows.map Prod.fst).foldl (fun d w => d.closeAt was d.breath w) d

/-- Step 5: the fail-over checkpoint. -/
def Dev.checkpoint (d : Dev) : Dev := d.onStripes fun x => { x with checkpointJseq := x.nextJseq }

/-- Steps 6 and 7: transactions and the Drone's own ones, then the direct writes that met the same cut-off. [log 74: DESIGN CHOICE] -/
def Dev.changeEdge (d : Dev) : Dev :=
  let edge := d.grid.lastEdge
  let span := (d.reg brg, d.reg (brg + 8))
  let epoch := (d.reg (brg + 0x10), d.reg (brg + 0x18))
  let d := ((d.commitEdge edge).narrowEdge).landWrites edge
  let moved := decide ((d.reg brg, d.reg (brg + 8)) ≠ span)
  let again := decide ((d.reg (brg + 0x10), d.reg (brg + 0x18)) ≠ epoch)
  if moved || again then d.reanchor moved again else d

/-- The next edge planned, by a re-seed where one lands here (R41, R509). -/
def Dev.nextEdge (d : Dev) : Dev :=
  let asked := d.field (brg + 0x40) 0 1 == 1
  let d := if asked then d.setField (brg + 0x40) 0 1 0 else d
  if asked && decide (d.grid.mode ≠ .locked) then d.reseed.planEdge
  else if asked || (d.grid.seamDue && decide (d.grid.mode = .locked)) then d.reseed
  else d.planEdge

/-- Step 8: shaper periods and URGENT budgets. -/
def Dev.renewEdge (d : Dev) : Dev :=
  d.renewQuotas.onFront fun f => { f with sqs := mapValues f.sqs fun _ q => { q with urgentLeft := q.arb.urgentBudget } }

/-- What the Drone does at an edge: sets returned, ledgers, spares and reshapes; nothing while it is halted (R350). -/
def Dev.droneEdge (d : Dev) : Dev :=
  if d.control.halted then d.onStripes fun x => { x with freshSpares := [] } else
  let d := ((d.returnSets.placeLedgers.assignSpares).endReshapes).retestRemedies
  d.when (!d.control.coresFenced.isEmpty && !d.control.degraded && !d.control.recopying) fun d =>
    d.onControl fun c => { c with recopyDue := true }

/-- The edge of a control reset whose commands have drained (R361). -/
def Dev.controlEdge (d : Dev) : Dev := match d.control.reset with
  | .draining cause =>
    if !d.controlDrained then d else
    let (d, n) := d.rollbackAll
    d.resetMouthpieces cause n
  | _ => d

/-- TUNE commands that waited for this edge take their page (R362). -/
def Dev.tuneEdge (d : Dev) : Dev :=
  d.front.flight.foldl (fun d f =>
    if opcodeOf f.2.entry = 0x45 && decide (f.2.stage = .awaiting) then
      d.deliverPage f.1 (d.tunePage (if isMouthpiece f.2.sq then f.2.sq - mouthpiece 0 else 0))
    else d) d

/-- Step 9: cunits of the new breath that have filled in windows with DEADLINE = 0, and the work that an edge sets free. -/
def Dev.startEdge (d : Dev) : Dev :=
  let d := d.onMemory fun m => { m with windows := mapValues m.windows fun _ w =>
    if w.mode = .armed then w.takeFilled d.breath else w }
  (d.controlEdge.tuneEdge).settle

/-- BREATH_EDGE. While a save runs the grid alone goes on (R436). [log 7: DEDUCED] -/
def execBreathEdge (s : State) : Answer := s.act fun d =>
  let was := d.breath
  let d := d.beginBreath.clock d.grid.nextEdge
  if d.power.saving.isSome then d.planEdge else
  let d := (d.countEdge.syncOut.closeWindows was).checkpoint
  let d := (d.changeEdge.nextEdge).renewEdge
  let d := d.startServing.droneEdge
  (if d.standbyReady then d.writeLedgers else d).startEdge.trimTraces

end Sys2Proof.Machine
end

