-- ==== Sys2Proof/Machine/Randomness.lean ====
section
/-! DEFINITION. Entropy, the DRBG and the mask generators, and the end of a key's destruction (R239, R249, R250). -/

namespace Sys2Proof.Machine

open Sys2Proof RegisterMap

/-- Source bits of CIP_RNG_STATUS. -/
def Cipher.sourceBits (c : Cipher) : Nat := bitmap 2 c.failing.contains

/-- RNG_FAULT: a health test has failed on some of the entropy sources 0 and 1; `test` 0 = repetition count, 1 = adaptive
proportion. With both failing the DRBG stops and the mask generators run on unreseeded. -/
def execRngFault (sources : List Nat) (test now : Nat) (s : State) : Answer := s.act fun d =>
  let d := d.clock now
  let new := sources.filter fun n => n < 2 && !d.cipher.failing.contains n
  if new.isEmpty then d else
  let d := (d.onCipher fun c => { c with failing := c.failing ++ new.eraseDups }).count (cip + 0x14) new.eraseDups.length
  if d.cipher.sourceBits = 3 ∧ d.cipher.stopped = false then
    (d.onCipher fun c => { c with stopped := true, stoppedAt := now, maskStale := true }).post Cls.security 0x12 (new.headD 0)
      [b1 test, b1 3]
  else d

/-- RNG_RECOVERED: a failing source has passed 1,024 consecutive windows; a stopped DRBG reseeds and runs again. -/
def execRngRecovered (source now : Nat) (s : State) : Answer := s.act fun d =>
  let d := d.clock now
  if !d.cipher.failing.contains source then d else
  let d := d.onCipher fun c => { c with failing := c.failing.filter fun n => n != source }
  if !d.cipher.stopped then d else
  let since := d.cipher.stoppedAt
  (d.onCipher fun c => { c with stopped := false, maskStale := false, reseeds := c.reseeds + 1 }).post Cls.security 0x13 source
    [b4 ((now - since) / ms)]

/-- DRBG_RESEED: after 2^20 requests or 1 s; a stopped DRBG takes no seed. -/
def execDrbgReseed (s : State) : Answer := s.act fun d =>
  if d.cipher.stopped then d else d.onCipher fun c => { c with reseeds := c.reseeds + 1 }

/-- MASK_RESEED: a lane's mask generator takes fresh bits from the DRBG, every 1 ms while it runs. -/
def execMaskReseed (lane : Nat) (s : State) : Answer := s.act fun d =>
  if lane ≥ 96 || d.cipher.stopped then d else d.onCipher fun c => { c with maskReseeds := c.maskReseeds + 1 }

/-- Work of generations up to one still uses a namespace: a command in flight, a closed breath or an activation. -/
def Dev.workOn (d : Dev) (nsid gen : Nat) : Bool :=
  (d.front.flight.any fun f => decide (1 ≤ byteAt f.2.entry 0) && decide (byteAt f.2.entry 0 ≤ 3) && leAt f.2.entry 4 4 == nsid &&
    decide (f.2.gen ≤ gen)) ||
  (d.memory.windows.any fun w => w.2.nsid == nsid && w.2.breaths.any fun b => b.2.seq.isSome && decide (b.2.gen ≤ gen)) ||
  d.chanters.threads.any fun t => t.2.nsid == nsid && decide (t.2.gen ≤ gen)

/-- KEY_DESTROYED: the last work of an earlier generation has ended; the entry is zeroised everywhere and becomes EMPTY. A
halted Drone zeroises nothing (R350). -/
def execKeyDestroyed (key : Nat) (s : State) : Answer := s.act fun d =>
  match find d.cipher.keys key with
  | none => d
  | some k =>
    let named := d.stripes.namespaces.filterMap fun n => if n.2.keyId = key then some n.1 else none
    if k.life ≠ .destroying || d.control.halted || named.any fun n => d.workOn n k.destroyGen then d else
    (d.onCipher fun c => { c with keys := drop c.keys key }).copyInstalled.post Cls.security 0x11 key [b1 (flag k.erase), b4 named.length]

end Sys2Proof.Machine
end

