-- ==== Sys2Proof/Machine/Dispatch.lean ====
section
/-! DEFINITION. One arm per command: the command's meaning. -/

namespace Sys2Proof.Machine

open Sys2Proof

def exec (i : Instr) (s : State) : Host.Outcome State Fault Refusal :=
  match i with
  | .breathEdge => Sys2Proof.Machine.execBreathEdge s
  | .reseed c => Sys2Proof.Machine.execReseed c s
  | .ptpSync p => Sys2Proof.Machine.execPtpSync p s
  | .ptpSyncTimeout => Sys2Proof.Machine.execPtpSyncTimeout s
  | .syncInPulse now widthPs => Sys2Proof.Machine.execSyncInPulse now widthPs s
  | .syncInTimeout => Sys2Proof.Machine.execSyncInTimeout s
  | .ppsPulse now widthPs => Sys2Proof.Machine.execPpsPulse now widthPs s
  | .ppsTimeout => Sys2Proof.Machine.execPpsTimeout s
  | .ref10mLoss => Sys2Proof.Machine.execRef10mLoss s
  | .ref10mQualify hz => Sys2Proof.Machine.execRef10mQualify hz s
  | .peerTimeTimeout => Sys2Proof.Machine.execPeerTimeTimeout s
  | .revertHoldExpiry => Sys2Proof.Machine.execRevertHoldExpiry s
  | .timeInputReject input => Sys2Proof.Machine.execTimeInputReject input s
  | .crossingReadTimeout addr => Sys2Proof.Machine.execCrossingReadTimeout addr s
  | .crossingWriteDrop block => Sys2Proof.Machine.execCrossingWriteDrop block s
  | .crossingWriteLand block now => Sys2Proof.Machine.execCrossingWriteLand block now s
  | .xingFlush mask => Sys2Proof.Machine.execXingFlush mask s
  | .registerWrite now addr bytes value => Sys2Proof.Machine.execRegisterWrite now addr bytes value s
  | .dataWriteRx f => Sys2Proof.Machine.execDataWriteRx f s
  | .readReqRx f => Sys2Proof.Machine.execReadReqRx f s
  | .readRespRx f => Sys2Proof.Machine.execReadRespRx f s
  | .capsuleRx f => Sys2Proof.Machine.execCapsuleRx f s
  | .responseRx f => Sys2Proof.Machine.execResponseRx f s
  | .ackRx f => Sys2Proof.Machine.execAckRx f s
  | .nackRx f => Sys2Proof.Machine.execNackRx f s
  | .eventRx f => Sys2Proof.Machine.execEventRx f s
  | .fetchComplete step sa target now => Sys2Proof.Machine.execFetchComplete step sa target now s
  | .fetchBufferTimeout now => Sys2Proof.Machine.execFetchBufferTimeout now s
  | .ackDelayExpiry sa => Sys2Proof.Machine.execAckDelayExpiry sa s
  | .retxTimer sa msgId pkt => Sys2Proof.Machine.execRetxTimer sa msgId pkt s
  | .responseReoffer cq => Sys2Proof.Machine.execResponseReoffer cq s
  | .replayEntryExpire now => Sys2Proof.Machine.execReplayEntryExpire now s
  | .replayHorizonShort => Sys2Proof.Machine.execReplayHorizonShort s
  | .authFail sa => Sys2Proof.Machine.execAuthFail sa s
  | .kexInit f => Sys2Proof.Machine.execKexInit f s
  | .kexReject port => Sys2Proof.Machine.execKexReject port s
  | .kexNonceExpire sa nonce => Sys2Proof.Machine.execKexNonceExpire sa nonce s
  | .keyPhaseOldExpire sa => Sys2Proof.Machine.execKeyPhaseOldExpire sa s
  | .portUp port => Sys2Proof.Machine.execPortUp port s
  | .portDown port => Sys2Proof.Machine.execPortDown port s
  | .opticsSample port rxPower txBias temp => Sys2Proof.Machine.execOpticsSample port rxPower txBias temp s
  | .opticsSampleTimeout port => Sys2Proof.Machine.execOpticsSampleTimeout port s
  | .portOpticsFault engine fault => Sys2Proof.Machine.execPortOpticsFault engine fault s
  | .portMacFault port => Sys2Proof.Machine.execPortMacFault port s
  | .portDropSummary port => Sys2Proof.Machine.execPortDropSummary port s
  | .neighbourRequest f kind => Sys2Proof.Machine.execNeighbourRequest f kind s
  | .regionRegister c => Sys2Proof.Machine.execRegionRegister c s
  | .regionRevoke c => Sys2Proof.Machine.execRegionRevoke c s
  | .revokeDrainDone index now => Sys2Proof.Machine.execRevokeDrainDone index now s
  | .windowCreate c => Sys2Proof.Machine.execWindowCreate c s
  | .windowArm c => Sys2Proof.Machine.execWindowArm c s
  | .windowDisarm c => Sys2Proof.Machine.execWindowDisarm c s
  | .windowDelete c => Sys2Proof.Machine.execWindowDelete c s
  | .windowRefuseSummary window => Sys2Proof.Machine.execWindowRefuseSummary window s
  | .plCopyRx c => Sys2Proof.Machine.execPlCopyRx c s
  | .plCopyAck window breath sa msgId pkt => Sys2Proof.Machine.execPlCopyAck window breath sa msgId pkt s
  | .sqPoll sq now => Sys2Proof.Machine.execSqPoll sq now s
  | .hostReadCompletion tag now answer => Sys2Proof.Machine.execHostReadCompletion tag now answer s
  | .cplTimeout tag => Sys2Proof.Machine.execCplTimeout tag s
  | .tagQuarantineEnd tag => Sys2Proof.Machine.execTagQuarantineEnd tag s
  | .chainDrain cq now => Sys2Proof.Machine.execChainDrain cq now s
  | .stallLimit cq now => Sys2Proof.Machine.execStallLimit cq now s
  | .mp0Enable now value => Sys2Proof.Machine.execMp0Enable now value s
  | .cqCreate c => Sys2Proof.Machine.execCqCreate c s
  | .sqCreate c => Sys2Proof.Machine.execSqCreate c s
  | .sqModify c => Sys2Proof.Machine.execSqModify c s
  | .sqDelete c => Sys2Proof.Machine.execSqDelete c s
  | .sqDeleteDone sq => Sys2Proof.Machine.execSqDeleteDone sq s
  | .cqDelete c => Sys2Proof.Machine.execCqDelete c s
  | .queueReset c => Sys2Proof.Machine.execQueueReset c s
  | .read c => Sys2Proof.Machine.execRead c s
  | .write c => Sys2Proof.Machine.execWrite c s
  | .deallocate c => Sys2Proof.Machine.execDeallocate c s
  | .abort c => Sys2Proof.Machine.execAbort c s
  | .txnBegin c => Sys2Proof.Machine.execTxnBegin c s
  | .txnCommit c => Sys2Proof.Machine.execTxnCommit c s
  | .txnRollback c => Sys2Proof.Machine.execTxnRollback c s
  | .txnExpired client now => Sys2Proof.Machine.execTxnExpired client now s
  | .getLog c => Sys2Proof.Machine.execGetLog c s
  | .tune c => Sys2Proof.Machine.execTune c s
  | .saCreate c => Sys2Proof.Machine.execSaCreate c s
  | .saDelete c => Sys2Proof.Machine.execSaDelete c s
  | .rctxCreate c => Sys2Proof.Machine.execRctxCreate c s
  | .rctxDelete c => Sys2Proof.Machine.execRctxDelete c s
  | .nsCreate c => Sys2Proof.Machine.execNsCreate c s
  | .nsDelete c => Sys2Proof.Machine.execNsDelete c s
  | .nsReleased nsid => Sys2Proof.Machine.execNsReleased nsid s
  | .setCreate c => Sys2Proof.Machine.execSetCreate c s
  | .setReady set => Sys2Proof.Machine.execSetReady set s
  | .setDelete c => Sys2Proof.Machine.execSetDelete c s
  | .setReshape c => Sys2Proof.Machine.execSetReshape c s
  | .spareAssign c => Sys2Proof.Machine.execSpareAssign c s
  | .programLoad c => Sys2Proof.Machine.execProgramLoad c s
  | .programBind c => Sys2Proof.Machine.execProgramBind c s
  | .programUnload c => Sys2Proof.Machine.execProgramUnload c s
  | .keyInstall c => Sys2Proof.Machine.execKeyInstall c s
  | .keyDestroy c => Sys2Proof.Machine.execKeyDestroy c s
  | .keyDestroyed key => Sys2Proof.Machine.execKeyDestroyed key s
  | .fwStage c => Sys2Proof.Machine.execFwStage c s
  | .fwActivate c => Sys2Proof.Machine.execFwActivate c s
  | .fwSlotWriteDone ok => Sys2Proof.Machine.execFwSlotWriteDone ok s
  | .fwActivated now => Sys2Proof.Machine.execFwActivated now s
  | .fwSlotRetry ok => Sys2Proof.Machine.execFwSlotRetry ok s
  | .schedSet c => Sys2Proof.Machine.execSchedSet c s
  | .regRead c => Sys2Proof.Machine.execRegRead c s
  | .regWrite c => Sys2Proof.Machine.execRegWrite c s
  | .commandDispatch thread now => Sys2Proof.Machine.execCommandDispatch thread now s
  | .windowCommitStart thread now => Sys2Proof.Machine.execWindowCommitStart thread now s
  | .earlyCunitStart thread window cunit now => Sys2Proof.Machine.execEarlyCunitStart thread window cunit now s
  | .add thread d a b => Sys2Proof.Machine.execAdd thread d a b s
  | .sub thread d a b => Sys2Proof.Machine.execSub thread d a b s
  | .and thread d a b => Sys2Proof.Machine.execAnd thread d a b s
  | .or thread d a b => Sys2Proof.Machine.execOr thread d a b s
  | .xor thread d a b => Sys2Proof.Machine.execXor thread d a b s
  | .not thread d a => Sys2Proof.Machine.execNot thread d a s
  | .sll thread d a b => Sys2Proof.Machine.execSll thread d a b s
  | .srl thread d a b => Sys2Proof.Machine.execSrl thread d a b s
  | .sra thread d a b => Sys2Proof.Machine.execSra thread d a b s
  | .slt thread d a b => Sys2Proof.Machine.execSlt thread d a b s
  | .sltu thread d a b => Sys2Proof.Machine.execSltu thread d a b s
  | .mul thread d a b => Sys2Proof.Machine.execMul thread d a b s
  | .mulhu thread d a b => Sys2Proof.Machine.execMulhu thread d a b s
  | .divu thread d a b => Sys2Proof.Machine.execDivu thread d a b s
  | .remu thread d a b => Sys2Proof.Machine.execRemu thread d a b s
  | .pcnt thread d a => Sys2Proof.Machine.execPcnt thread d a s
  | .ctz thread d a => Sys2Proof.Machine.execCtz thread d a s
  | .clz thread d a => Sys2Proof.Machine.execClz thread d a s
  | .addi thread d a imm => Sys2Proof.Machine.execAddi thread d a imm s
  | .andi thread d a imm => Sys2Proof.Machine.execAndi thread d a imm s
  | .ori thread d a imm => Sys2Proof.Machine.execOri thread d a imm s
  | .xori thread d a imm => Sys2Proof.Machine.execXori thread d a imm s
  | .slti thread d a imm => Sys2Proof.Machine.execSlti thread d a imm s
  | .sltiu thread d a imm => Sys2Proof.Machine.execSltiu thread d a imm s
  | .slli thread d a imm => Sys2Proof.Machine.execSlli thread d a imm s
  | .srli thread d a imm => Sys2Proof.Machine.execSrli thread d a imm s
  | .srai thread d a imm => Sys2Proof.Machine.execSrai thread d a imm s
  | .liq thread d q imm => Sys2Proof.Machine.execLiq thread d q imm s
  | .ldB thread d b imm => Sys2Proof.Machine.execLdB thread d b imm s
  | .ldH thread d b imm => Sys2Proof.Machine.execLdH thread d b imm s
  | .ldW thread d b imm => Sys2Proof.Machine.execLdW thread d b imm s
  | .ldD thread d b imm => Sys2Proof.Machine.execLdD thread d b imm s
  | .stB thread v b imm => Sys2Proof.Machine.execStB thread v b imm s
  | .stH thread v b imm => Sys2Proof.Machine.execStH thread v b imm s
  | .stW thread v b imm => Sys2Proof.Machine.execStW thread v b imm s
  | .stD thread v b imm => Sys2Proof.Machine.execStD thread v b imm s
  | .beq thread a b off => Sys2Proof.Machine.execBeq thread a b off s
  | .bne thread a b off => Sys2Proof.Machine.execBne thread a b off s
  | .blt thread a b off => Sys2Proof.Machine.execBlt thread a b off s
  | .bge thread a b off => Sys2Proof.Machine.execBge thread a b off s
  | .bltu thread a b off => Sys2Proof.Machine.execBltu thread a b off s
  | .bgeu thread a b off => Sys2Proof.Machine.execBgeu thread a b off s
  | .j thread off => Sys2Proof.Machine.execJ thread off s
  | .jal thread d off => Sys2Proof.Machine.execJal thread d off s
  | .jr thread src => Sys2Proof.Machine.execJr thread src s
  | .mkca thread d n src => Sys2Proof.Machine.execMkca thread d n src s
  | .capn thread cd cs a b mask => Sys2Proof.Machine.execCapn thread cd cs a b mask s
  | .rds thread d src => Sys2Proof.Machine.execRds thread d src s
  | .zc thread d src => Sys2Proof.Machine.execZc thread d src s
  | .zd thread d src => Sys2Proof.Machine.execZd thread d src s
  | .xts thread d src decrypt => Sys2Proof.Machine.execXts thread d src decrypt s
  | .app thread d src => Sys2Proof.Machine.execApp thread d src s
  | .rdl thread d src => Sys2Proof.Machine.execRdl thread d src s
  | .xout thread d src => Sys2Proof.Machine.execXout thread d src s
  | .unmap thread d src => Sys2Proof.Machine.execUnmap thread d src s
  | .wait thread d t => Sys2Proof.Machine.execWait thread d t s
  | .mapq thread d src => Sys2Proof.Machine.execMapq thread d src s
  | .rdc thread d src => Sys2Proof.Machine.execRdc thread d src s
  | .post thread src now => Sys2Proof.Machine.execPost thread src now s
  | .halt thread now => Sys2Proof.Machine.execHalt thread now s
  | .note thread src => Sys2Proof.Machine.execNote thread src s
  | .zcComplete thread ticket now => Sys2Proof.Machine.execZcComplete thread ticket now s
  | .zdComplete thread ticket now => Sys2Proof.Machine.execZdComplete thread ticket now s
  | .xtsComplete thread ticket now => Sys2Proof.Machine.execXtsComplete thread ticket now s
  | .appComplete thread ticket now => Sys2Proof.Machine.execAppComplete thread ticket now s
  | .rdlComplete thread ticket media now => Sys2Proof.Machine.execRdlComplete thread ticket media now s
  | .xoutComplete thread ticket failure now => Sys2Proof.Machine.execXoutComplete thread ticket failure now s
  | .unmapComplete thread ticket now => Sys2Proof.Machine.execUnmapComplete thread ticket now s
  | .instructionTag thread pc word delay stall cause fault now ticket => Sys2Proof.Machine.execInstructionTag thread pc word delay stall cause fault now ticket s
  | .cpeLaneStop lane consumed produced => Sys2Proof.Machine.execCpeLaneStop lane consumed produced s
  | .cpeLaneResume lane => Sys2Proof.Machine.execCpeLaneResume lane s
  | .cpeUndecodableSummary => Sys2Proof.Machine.execCpeUndecodableSummary s
  | .cipLaneStop lane thread ticket => Sys2Proof.Machine.execCipLaneStop lane thread ticket s
  | .cipLaneResume lane thread ticket => Sys2Proof.Machine.execCipLaneResume lane thread ticket s
  | .memoryUe store unit addr lost now => Sys2Proof.Machine.execMemoryUe store unit addr lost now s
  | .swcCellLost => Sys2Proof.Machine.execSwcCellLost s
  | .eccScrub store corrected => Sys2Proof.Machine.execEccScrub store corrected s
  | .memoryCeSummary store => Sys2Proof.Machine.execMemoryCeSummary store s
  | .rngFault sources test now => Sys2Proof.Machine.execRngFault sources test now s
  | .rngRecovered source now => Sys2Proof.Machine.execRngRecovered source now s
  | .drbgReseed => Sys2Proof.Machine.execDrbgReseed s
  | .maskReseed lane => Sys2Proof.Machine.execMaskReseed lane s
  | .cipTestEntered client => Sys2Proof.Machine.execCipTestEntered client s
  | .cipTestExit => Sys2Proof.Machine.execCipTestExit s
  | .testAesBlockEncrypt client => Sys2Proof.Machine.execTestAesBlockEncrypt client s
  | .testGcmEncrypt client => Sys2Proof.Machine.execTestGcmEncrypt client s
  | .testXtsEncrypt client => Sys2Proof.Machine.execTestXtsEncrypt client s
  | .testXtsDecrypt client => Sys2Proof.Machine.execTestXtsDecrypt client s
  | .stripeCloseMs set host now => Sys2Proof.Machine.execStripeCloseMs set host now s
  | .nvmeWriteCompletion bay cid status now => Sys2Proof.Machine.execNvmeWriteCompletion bay cid status now s
  | .mapCommit set stripe now => Sys2Proof.Machine.execMapCommit set stripe now s
  | .pageCkpt nsid page now => Sys2Proof.Machine.execPageCkpt nsid page now s
  | .collection set now => Sys2Proof.Machine.execCollection set now s
  | .zoneFree set zone => Sys2Proof.Machine.execZoneFree set zone s
  | .recovery set source now => Sys2Proof.Machine.execRecovery set source now s
  | .recoveryDone set now => Sys2Proof.Machine.execRecoveryDone set now s
  | .rebuildDone set member now => Sys2Proof.Machine.execRebuildDone set member now s
  | .stripeLost set => Sys2Proof.Machine.execStripeLost set s
  | .lossWalkDone set now => Sys2Proof.Machine.execLossWalkDone set now s
  | .scrubPassDone set => Sys2Proof.Machine.execScrubPassDone set s
  | .landing count => Sys2Proof.Machine.execLanding count s
  | .spillReturn queue => Sys2Proof.Machine.execSpillReturn queue s
  | .swcInputResumed now => Sys2Proof.Machine.execSwcInputResumed now s
  | .egressSend point now => Sys2Proof.Machine.execEgressSend point now s
  | .schSample now => Sys2Proof.Machine.execSchSample now s
  | .schSampleDropSummary => Sys2Proof.Machine.execSchSampleDropSummary s
  | .droneCoreFenced core cause now => Sys2Proof.Machine.execDroneCoreFenced core cause now s
  | .droneRecopy now => Sys2Proof.Machine.execDroneRecopy now s
  | .droneRecopied now => Sys2Proof.Machine.execDroneRecopied now s
  | .droneDegraded now => Sys2Proof.Machine.execDroneDegraded now s
  | .droneHalted cores => Sys2Proof.Machine.execDroneHalted cores s
  | .stewardRestarted steward cause done => Sys2Proof.Machine.execStewardRestarted steward cause done s
  | .stewardViolation steward addr kind => Sys2Proof.Machine.execStewardViolation steward addr kind s
  | .controlReset client now value => Sys2Proof.Machine.execControlReset client now value s
  | .autoReset now => Sys2Proof.Machine.execAutoReset now s
  | .controlResetDone now => Sys2Proof.Machine.execControlResetDone now s
  | .ownerLock client now value => Sys2Proof.Machine.execOwnerLock client now value s
  | .attestQuote writer bank now => Sys2Proof.Machine.execAttestQuote writer bank now s
  | .attestCertificates writer bank now => Sys2Proof.Machine.execAttestCertificates writer bank now s
  | .attestLog writer bank now => Sys2Proof.Machine.execAttestLog writer bank now s
  | .attestDone bank => Sys2Proof.Machine.execAttestDone bank s
  | .akCertified => Sys2Proof.Machine.execAkCertified s
  | .loaderSlotCheck good manifest => Sys2Proof.Machine.execLoaderSlotCheck good manifest s
  | .loaderPlRetry => Sys2Proof.Machine.execLoaderPlRetry s
  | .fwRecovered source manifest => Sys2Proof.Machine.execFwRecovered source manifest s
  | .plLinkUp now => Sys2Proof.Machine.execPlLinkUp now s
  | .plLinkDown now => Sys2Proof.Machine.execPlLinkDown now s
  | .pairKeyExchange failedStep key version peerMin now => Sys2Proof.Machine.execPairKeyExchange failedStep key version peerMin now s
  | .pairKeyRetry now => Sys2Proof.Machine.execPairKeyRetry now s
  | .pairKeyRekey key => Sys2Proof.Machine.execPairKeyRekey key s
  | .heartbeatSend now => Sys2Proof.Machine.execHeartbeatSend now s
  | .heartbeatRx h verified now => Sys2Proof.Machine.execHeartbeatRx h verified now s
  | .aliveRelease now => Sys2Proof.Machine.execAliveRelease now s
  | .partnerLineChange alive owner => Sys2Proof.Machine.execPartnerLineChange alive owner s
  | .partnerFailed now => Sys2Proof.Machine.execPartnerFailed now s
  | .takeoverDone now => Sys2Proof.Machine.execTakeoverDone now s
  | .mirrorAppendRx m => Sys2Proof.Machine.execMirrorAppendRx m s
  | .forwardedCommand origin entry payload now => Sys2Proof.Machine.execForwardedCommand origin entry payload now s
  | .forwardedCompletion seq admitSeq status result list data checks now => Sys2Proof.Machine.execForwardedCompletion seq admitSeq status result list data checks now s
  | .resync now => Sys2Proof.Machine.execResync now s
  | .resyncRetry now => Sys2Proof.Machine.execResyncRetry now s
  | .partnerStandbyReady now => Sys2Proof.Machine.execPartnerStandbyReady now s
  | .handback client now value => Sys2Proof.Machine.execHandback client now value s
  | .handover set jseq now => Sys2Proof.Machine.execHandover set jseq now s
  | .handbackDone set now => Sys2Proof.Machine.execHandbackDone set now s
  | .loopForward f shelf => Sys2Proof.Machine.execLoopForward f shelf s
  | .driveQualify bay report now => Sys2Proof.Machine.execDriveQualify bay report now s
  | .identifyRetry bay conforms now => Sys2Proof.Machine.execIdentifyRetry bay conforms now s
  | .autoPrepare => Sys2Proof.Machine.execAutoPrepare s
  | .nvmeAdminCompletion bay cid health now => Sys2Proof.Machine.execNvmeAdminCompletion bay cid health now s
  | .nvmeReadCompletion bay cid ok now => Sys2Proof.Machine.execNvmeReadCompletion bay cid ok now s
  | .readTimeout bay cid now => Sys2Proof.Machine.execReadTimeout bay cid now s
  | .writeTimeout bay cid now => Sys2Proof.Machine.execWriteTimeout bay cid now s
  | .adminTimeout bay cid now => Sys2Proof.Machine.execAdminTimeout bay cid now s
  | .cidQuarantineEnd bay cid => Sys2Proof.Machine.execCidQuarantineEnd bay cid s
  | .driveTimeoutSummary bay => Sys2Proof.Machine.execDriveTimeoutSummary bay s
  | .driveDmaRequest bay addr len data => Sys2Proof.Machine.execDriveDmaRequest bay addr len data s
  | .driveBadDma bay => Sys2Proof.Machine.execDriveBadDma bay s
  | .controllerFatal bay now => Sys2Proof.Machine.execControllerFatal bay now s
  | .driveLinkDown bay now => Sys2Proof.Machine.execDriveLinkDown bay now s
  | .driveLinkUp bay now => Sys2Proof.Machine.execDriveLinkUp bay now s
  | .linkDownExpiry bay now => Sys2Proof.Machine.execLinkDownExpiry bay now s
  | .linkTrainTimeout bay => Sys2Proof.Machine.execLinkTrainTimeout bay s
  | .cstsReadyTimeout bay => Sys2Proof.Machine.execCstsReadyTimeout bay s
  | .healthPoll bay => Sys2Proof.Machine.execHealthPoll bay s
  | .moduleSeated now => Sys2Proof.Machine.execModuleSeated now s
  | .moduleExtraction now => Sys2Proof.Machine.execModuleExtraction now s
  | .bayInserted bay => Sys2Proof.Machine.execBayInserted bay s
  | .bayRemoved bay now => Sys2Proof.Machine.execBayRemoved bay now s
  | .inletWindow inside now => Sys2Proof.Machine.execInletWindow inside now s
  | .inletDelayExpiry => Sys2Proof.Machine.execInletDelayExpiry s
  | .inletOn mv rampUs now => Sys2Proof.Machine.execInletOn mv rampUs now s
  | .inletFault cause now => Sys2Proof.Machine.execInletFault cause now s
  | .inletRampTimeout => Sys2Proof.Machine.execInletRampTimeout s
  | .inletRetry => Sys2Proof.Machine.execInletRetry s
  | .inletFaultClear client => Sys2Proof.Machine.execInletFaultClear client s
  | .bayDelayExpiry bay fed => Sys2Proof.Machine.execBayDelayExpiry bay fed s
  | .auxDelayExpiry bay => Sys2Proof.Machine.execAuxDelayExpiry bay s
  | .bayPowered bay rampUs => Sys2Proof.Machine.execBayPowered bay rampUs s
  | .bayFault bay cause peak now => Sys2Proof.Machine.execBayFault bay cause peak now s
  | .bayRampTimeout bay now => Sys2Proof.Machine.execBayRampTimeout bay now s
  | .bayRetry bay => Sys2Proof.Machine.execBayRetry bay s
  | .bayEnable client bay value now => Sys2Proof.Machine.execBayEnable client bay value now s
  | .bayFaultClear client bay => Sys2Proof.Machine.execBayFaultClear client bay s
  | .powerBudget ma => Sys2Proof.Machine.execPowerBudget ma s
  | .powerBudgetRelease => Sys2Proof.Machine.execPowerBudgetRelease s
  | .sensorFault sensor => Sys2Proof.Machine.execSensorFault sensor s
  | .powerFail mv now => Sys2Proof.Machine.execPowerFail mv now s
  | .powerRestored now => Sys2Proof.Machine.execPowerRestored now s
  | .saveStart now => Sys2Proof.Machine.execSaveStart now s
  | .saveComplete ms joules => Sys2Proof.Machine.execSaveComplete ms joules s
  | .holdupExhausted ms joules => Sys2Proof.Machine.execHoldupExhausted ms joules s
  | .holdupTest deltaMv mv => Sys2Proof.Machine.execHoldupTest deltaMv mv s
  | .holdupCharged mv => Sys2Proof.Machine.execHoldupCharged mv s
  | .fanFault fan rpm => Sys2Proof.Machine.execFanFault fan rpm s
  | .fanRestored fan rpm => Sys2Proof.Machine.execFanRestored fan rpm s
  | .temperatureStale sensor => Sys2Proof.Machine.execTemperatureStale sensor s
  | .thermalShutdown now => Sys2Proof.Machine.execThermalShutdown now s
  | .thermalRestart => Sys2Proof.Machine.execThermalRestart s
  | .bar2Tlp r => Sys2Proof.Machine.execBar2Tlp r s
  | .pepWinCommit client mask => Sys2Proof.Machine.execPepWinCommit client mask s
  | .pepWinHold client mask => Sys2Proof.Machine.execPepWinHold client mask s
  | .pepWinHoldExpired window => Sys2Proof.Machine.execPepWinHoldExpired window s
  | .irqGapExpiry vector => Sys2Proof.Machine.execIrqGapExpiry vector s
  | .msixUnmask vector => Sys2Proof.Machine.execMsixUnmask vector s
  | .busMasterDisable d3 => Sys2Proof.Machine.execBusMasterDisable d3 s
  | .endpointReset cause now => Sys2Proof.Machine.execEndpointReset cause now s
  | .endpointLinkUp speed width => Sys2Proof.Machine.execEndpointLinkUp speed width s
  | .pepAccessSummary => Sys2Proof.Machine.execPepAccessSummary s
  | .cntFreeze client => Sys2Proof.Machine.execCntFreeze client s
  | .cntResume client => Sys2Proof.Machine.execCntResume client s
  | .freezeEdge client now => Sys2Proof.Machine.execFreezeEdge client now s
  | .resumeEdge client now => Sys2Proof.Machine.execResumeEdge client now s
  | .clearAll client => Sys2Proof.Machine.execClearAll client s
  | .cntValWrite client counter value => Sys2Proof.Machine.execCntValWrite client counter value s
  | .cntOverflow counter amount => Sys2Proof.Machine.execCntOverflow counter amount s
  | .cntRecordDropSummary => Sys2Proof.Machine.execCntRecordDropSummary s
  | .eventDelivery client now => Sys2Proof.Machine.execEventDelivery client now s
  | .eventReoffer client now => Sys2Proof.Machine.execEventReoffer client now s
  | .evq0Enable client => Sys2Proof.Machine.execEvq0Enable client s
  | .mgmtFrameRx frame fcsOk now => Sys2Proof.Machine.execMgmtFrameRx frame fcsOk now s
  | .eventMirror now => Sys2Proof.Machine.execEventMirror now s
  | .mgmtLinkUp => Sys2Proof.Machine.execMgmtLinkUp s
  | .mgmtLinkDown => Sys2Proof.Machine.execMgmtLinkDown s
  | .standbyPowerUp => Sys2Proof.Machine.execStandbyPowerUp s
  | .slotPinRead level => Sys2Proof.Machine.execSlotPinRead level s
  | .slotPinTimeout => Sys2Proof.Machine.execSlotPinTimeout s
  | .slotPinChange level => Sys2Proof.Machine.execSlotPinChange level s
  | .bellTrainingDone failed => Sys2Proof.Machine.execBellTrainingDone failed s
  | .restoreDone => Sys2Proof.Machine.execRestoreDone s
  | .claim slot owned dumpBreath breath now => Sys2Proof.Machine.execClaim slot owned dumpBreath breath now s
  | .peerWaitTimeout labels now => Sys2Proof.Machine.execPeerWaitTimeout labels now s
  | .ptpDelayReq port domain source seq rx => Sys2Proof.Machine.execPtpDelayReq port domain source seq rx s
  | .ptpMasterSync now => Sys2Proof.Machine.execPtpMasterSync now s
  | .mapqComplete thread ticket now => Sys2Proof.Machine.execMapqComplete thread ticket now s
  | .rdcComplete thread ticket now => Sys2Proof.Machine.execRdcComplete thread ticket now s
  | .nvmeFlushCompletion bay cid status now => Sys2Proof.Machine.execNvmeFlushCompletion bay cid status now s
  | .holdupFullCharge mv => Sys2Proof.Machine.execHoldupFullCharge mv s
  | .holdupRecharge mv => Sys2Proof.Machine.execHoldupRecharge mv s
  | .temperatureSample sensor celsius => Sys2Proof.Machine.execTemperatureSample sensor celsius s
  | .busMasterEnable => Sys2Proof.Machine.execBusMasterEnable s
  | .ctlEvq0HeadWrite client value => Sys2Proof.Machine.execCtlEvq0HeadWrite client value s
  | .standbyCopyRx x => Sys2Proof.Machine.execStandbyCopyRx x s
  | .recoveryCopyDone => Sys2Proof.Machine.execRecoveryCopyDone s
  | .fwCopyRequest => Sys2Proof.Machine.execFwCopyRequest s

end Sys2Proof.Machine
end

