-- ==== Sys2Proof/Machine/Step.lean ====
section
/-! DEFINITION. A step takes the command at the front of the queue and carries it out; with no command waiting the
module idles. -/

namespace Sys2Proof.Machine

open Sys2Proof

/-- One step: the front command, carried out with the queue's rest; on an empty queue the module idles.
[log 2: DESIGN CHOICE; log 115: DESIGN CHOICE] -/
def step (s : State) : Host.Outcome State Fault Refusal :=
  match s.pending with
  | [] => .next s
  | c :: rest => exec c { s with pending := rest }

/-- A state with the command that a table word spells put at the front of its queue. [log 3: DEDUCED] -/
def State.withFetchWord (s : State) (nbits w : Nat) : State :=
  match decodeTableWord nbits w with
  | some c => { s with pending := c :: s.pending }
  | none => s

end Sys2Proof.Machine
end

