-- ==== Sys2Proof/Laws/Tables.lean ====
section
/-! SUPPORT. What the table operations do: what a key finds after each, and that keys stay strictly rising. -/

namespace Sys2Proof.Machine

variable {α : Type}

@[simp] theorem find_nil (n : Nat) : find ([] : Table α) n = none := rfl

theorem find_cons (k : Nat) (v : α) (t : Table α) (n : Nat) : find ((k, v) :: t) n = if k = n then some v else find t n := rfl

/-- A put key finds its value; every other key finds what it found. -/
theorem find_put (t : Table α) (n m : Nat) (v : α) : find (put t n v) m = if m = n then some v else find t m := by
  induction t with
  | nil => simp only [put, find_cons, find_nil, eq_comm]
  | cons p t ih =>
    obtain ⟨k, w⟩ := p
    simp only [put]
    split
    · simp only [find_cons, eq_comm (a := n) (b := m)]
    · split
      · rename_i h; subst h; simp only [find_cons]; by_cases e : k = m <;> simp [e, show (m = k) = (k = m) from propext eq_comm]
      · rename_i h; simp only [find_cons, ih]
        by_cases e : k = m
        · subst e; simp [h]
        · simp [e]

@[simp] theorem find_put_self (t : Table α) (n : Nat) (v : α) : find (put t n v) n = some v := by simp [find_put]

theorem find_put_ne (t : Table α) {n m : Nat} (v : α) (h : m ≠ n) : find (put t n v) m = find t m := by simp [find_put, h]

/-- A dropped key finds nothing; every other key finds what it found. -/
theorem find_drop (t : Table α) (n m : Nat) : find (drop t n) m = if m = n then none else find t m := by
  induction t with
  | nil => simp [drop]
  | cons p t ih =>
    obtain ⟨k, w⟩ := p
    have e : drop ((k, w) :: t) n = if k = n then drop t n else (k, w) :: drop t n := by
      by_cases h : k = n <;> simp [drop, h]
    rw [e]
    split
    · rename_i h; subst h; rw [ih, find_cons]; by_cases e : k = m <;> simp [e]
    · rename_i h; rw [find_cons, find_cons, ih]
      by_cases e : k = m
      · subst e; simp [h]
      · simp [e]

@[simp] theorem find_drop_self (t : Table α) (n : Nat) : find (drop t n) n = none := by simp [find_drop]

/-- An altered key finds the changed value, where it found one; every other key finds what it found. -/
theorem find_alter (t : Table α) (n m : Nat) (f : α → α) : find (alter t n f) m = if m = n then (find t n).map f else find t m := by
  unfold alter
  split
  · rename_i v h; simp [find_put, h]
  · rename_i h; split
    · rename_i e; subst e; simp [h]
    · rfl

/-- A filter on keys hides the keys it refuses. -/
theorem find_filter_key (t : Table α) (p : Nat → Bool) (n : Nat) :
    find (t.filter fun q => p q.1) n = if p n then find t n else none := by
  induction t with
  | nil => simp
  | cons q t ih =>
    obtain ⟨k, w⟩ := q
    by_cases h : p k
    · simp only [List.filter_cons, h, if_true, find_cons, ih]
      split
      · rename_i e; subst e; simp [h]
      · rfl
    · simp only [List.filter_cons, h, find_cons]
      by_cases e : k = n
      · subst e; simpa [h] using ih
      · simpa [e] using ih

/-- Changing every value changes what each key finds. -/
theorem find_mapValues (t : Table α) (f : Nat → α → α) (n : Nat) : find (mapValues t f) n = (find t n).map (f n) := by
  induction t with
  | nil => rfl
  | cons p t ih =>
    obtain ⟨k, w⟩ := p
    change find ((k, f k w) :: mapValues t f) n = _
    simp only [find_cons, ih]
    split
    · rename_i e; subst e; rfl
    · rfl

/-- A key finds a value only where the table lists it. -/
theorem mem_of_find {t : Table α} {n : Nat} {v : α} (h : find t n = some v) : (n, v) ∈ t := by
  induction t with
  | nil => simp at h
  | cons p t ih =>
    obtain ⟨k, w⟩ := p
    simp only [find_cons] at h
    split at h
    · cases h; subst_vars; exact List.mem_cons_self
    · exact List.mem_cons_of_mem _ (ih h)

/-! ## Rising keys -/

/-- Keys strictly rising, as a statement about every pair. -/
theorem rising_iff (t : Table α) : rising t = true ↔ t.Pairwise fun a b => a.1 < b.1 := by
  induction t with
  | nil => simp [rising]
  | cons a t ih =>
    cases t with
    | nil => simp [rising]
    | cons b t =>
      simp only [rising, Bool.and_eq_true, decide_eq_true_eq, ih]
      constructor
      · rintro ⟨h, hp⟩
        refine List.pairwise_cons.2 ⟨?_, hp⟩
        intro c hc
        rcases List.mem_cons.1 hc with rfl | hc
        · exact h
        · exact Nat.lt_trans h ((List.pairwise_cons.1 hp).1 c hc)
      · intro hp
        exact ⟨(List.pairwise_cons.1 hp).1 b List.mem_cons_self, (List.pairwise_cons.1 hp).2⟩

/-- Entries of a table after a put: the new one, or old ones. -/
theorem mem_put {t : Table α} {n : Nat} {v : α} {p : Nat × α} (h : p ∈ put t n v) : p = (n, v) ∨ p ∈ t := by
  induction t with
  | nil => simp [put] at h; exact .inl h
  | cons q t ih =>
    obtain ⟨k, w⟩ := q
    simp only [put] at h
    split at h
    · rcases List.mem_cons.1 h with h | h
      · exact .inl h
      · exact .inr h
    · split at h
      · rcases List.mem_cons.1 h with h | h
        · exact .inl h
        · exact .inr (List.mem_cons_of_mem _ h)
      · rcases List.mem_cons.1 h with h | h
        · exact .inr (h ▸ List.mem_cons_self)
        · rcases ih h with h | h
          · exact .inl h
          · exact .inr (List.mem_cons_of_mem _ h)

theorem rising_put {t : Table α} (n : Nat) (v : α) (h : rising t = true) : rising (put t n v) = true := by
  rw [rising_iff] at h ⊢
  induction t with
  | nil => simp [put]
  | cons q t ih =>
    obtain ⟨k, w⟩ := q
    obtain ⟨hk, ht⟩ := List.pairwise_cons.1 h
    simp only [put]
    split
    · rename_i lt
      refine List.pairwise_cons.2 ⟨?_, h⟩
      intro c hc
      rcases List.mem_cons.1 hc with rfl | hc
      · exact lt
      · exact Nat.lt_trans lt (hk c hc)
    · split
      · rename_i e; subst e; exact List.pairwise_cons.2 ⟨hk, ht⟩
      · refine List.pairwise_cons.2 ⟨?_, ih ht⟩
        intro c hc
        rcases mem_put hc with rfl | hc
        · change k < n; omega
        · exact hk c hc

theorem rising_filter {t : Table α} (p : Nat × α → Bool) (h : rising t = true) : rising (t.filter p) = true := by
  rw [rising_iff] at h ⊢
  exact h.filter p

theorem rising_drop {t : Table α} (n : Nat) (h : rising t = true) : rising (drop t n) = true := rising_filter _ h

theorem rising_alter {t : Table α} (n : Nat) (f : α → α) (h : rising t = true) : rising (alter t n f) = true := by
  unfold alter
  split
  · exact rising_put _ _ h
  · exact h

theorem rising_mapValues {t : Table α} (f : Nat → α → α) (h : rising t = true) : rising (mapValues t f) = true := by
  rw [rising_iff] at h ⊢
  exact List.pairwise_map.2 h

/-- In a rising table every entry is found under its key. -/
theorem find_of_mem {t : Table α} (h : rising t = true) {n : Nat} {v : α} (hm : (n, v) ∈ t) : find t n = some v := by
  rw [rising_iff] at h
  induction t with
  | nil => simp at hm
  | cons q t ih =>
    obtain ⟨k, w⟩ := q
    obtain ⟨hk, ht⟩ := List.pairwise_cons.1 h
    rw [find_cons]
    rcases List.mem_cons.1 hm with e | hm
    · cases e; simp
    · have := hk _ hm
      rw [if_neg (by change k ≠ n; have : k < n := this; omega)]
      exact ih ht hm

end Sys2Proof.Machine
end

