-- ==== Sys2Proof/Laws/State.lean ====
section
/-! SUPPORT. What each named update leaves of the module: one lemma per field per update, so that no proof unfolds a record update; and
what a register reads after a change of the register file. -/

namespace Sys2Proof.Machine

variable (d : Dev)

/-! ### setReg -/

@[simp] theorem Dev.setReg_now (a v : Nat) : (d.setReg a v).now = d.now := rfl
@[simp] theorem Dev.setReg_grid (a v : Nat) : (d.setReg a v).grid = d.grid := rfl
@[simp] theorem Dev.setReg_crossing (a v : Nat) : (d.setReg a v).crossing = d.crossing := rfl
@[simp] theorem Dev.setReg_front (a v : Nat) : (d.setReg a v).front = d.front := rfl
@[simp] theorem Dev.setReg_control (a v : Nat) : (d.setReg a v).control = d.control := rfl
@[simp] theorem Dev.setReg_events (a v : Nat) : (d.setReg a v).events = d.events := rfl
@[simp] theorem Dev.setReg_endpoint (a v : Nat) : (d.setReg a v).endpoint = d.endpoint := rfl
@[simp] theorem Dev.setReg_transport (a v : Nat) : (d.setReg a v).transport = d.transport := rfl
@[simp] theorem Dev.setReg_memory (a v : Nat) : (d.setReg a v).memory = d.memory := rfl
@[simp] theorem Dev.setReg_chanters (a v : Nat) : (d.setReg a v).chanters = d.chanters := rfl
@[simp] theorem Dev.setReg_compression (a v : Nat) : (d.setReg a v).compression = d.compression := rfl
@[simp] theorem Dev.setReg_cipher (a v : Nat) : (d.setReg a v).cipher = d.cipher := rfl
@[simp] theorem Dev.setReg_stripes (a v : Nat) : (d.setReg a v).stripes = d.stripes := rfl
@[simp] theorem Dev.setReg_switch (a v : Nat) : (d.setReg a v).switch = d.switch := rfl
@[simp] theorem Dev.setReg_bays (a v : Nat) : (d.setReg a v).bays = d.bays := rfl
@[simp] theorem Dev.setReg_trust (a v : Nat) : (d.setReg a v).trust = d.trust := rfl
@[simp] theorem Dev.setReg_peer (a v : Nat) : (d.setReg a v).peer = d.peer := rfl
@[simp] theorem Dev.setReg_power (a v : Nat) : (d.setReg a v).power = d.power := rfl
@[simp] theorem Dev.setReg_counters (a v : Nat) : (d.setReg a v).counters = d.counters := rfl
@[simp] theorem Dev.setReg_startUp (a v : Nat) : (d.setReg a v).startUp = d.startUp := rfl
@[simp] theorem Dev.setReg_mgmt (a v : Nat) : (d.setReg a v).mgmt = d.mgmt := rfl
@[simp] theorem Dev.setReg_protection (a v : Nat) : (d.setReg a v).protection = d.protection := rfl
@[simp] theorem Dev.setReg_out (a v : Nat) : (d.setReg a v).out = d.out := rfl
@[simp] theorem Dev.setReg_draws (a v : Nat) : (d.setReg a v).draws = d.draws := rfl

/-! ### setField -/

@[simp] theorem Dev.setField_now (a lo w v : Nat) : (d.setField a lo w v).now = d.now := rfl
@[simp] theorem Dev.setField_grid (a lo w v : Nat) : (d.setField a lo w v).grid = d.grid := rfl
@[simp] theorem Dev.setField_crossing (a lo w v : Nat) : (d.setField a lo w v).crossing = d.crossing := rfl
@[simp] theorem Dev.setField_front (a lo w v : Nat) : (d.setField a lo w v).front = d.front := rfl
@[simp] theorem Dev.setField_control (a lo w v : Nat) : (d.setField a lo w v).control = d.control := rfl
@[simp] theorem Dev.setField_events (a lo w v : Nat) : (d.setField a lo w v).events = d.events := rfl
@[simp] theorem Dev.setField_endpoint (a lo w v : Nat) : (d.setField a lo w v).endpoint = d.endpoint := rfl
@[simp] theorem Dev.setField_transport (a lo w v : Nat) : (d.setField a lo w v).transport = d.transport := rfl
@[simp] theorem Dev.setField_memory (a lo w v : Nat) : (d.setField a lo w v).memory = d.memory := rfl
@[simp] theorem Dev.setField_chanters (a lo w v : Nat) : (d.setField a lo w v).chanters = d.chanters := rfl
@[simp] theorem Dev.setField_compression (a lo w v : Nat) : (d.setField a lo w v).compression = d.compression := rfl
@[simp] theorem Dev.setField_cipher (a lo w v : Nat) : (d.setField a lo w v).cipher = d.cipher := rfl
@[simp] theorem Dev.setField_stripes (a lo w v : Nat) : (d.setField a lo w v).stripes = d.stripes := rfl
@[simp] theorem Dev.setField_switch (a lo w v : Nat) : (d.setField a lo w v).switch = d.switch := rfl
@[simp] theorem Dev.setField_bays (a lo w v : Nat) : (d.setField a lo w v).bays = d.bays := rfl
@[simp] theorem Dev.setField_trust (a lo w v : Nat) : (d.setField a lo w v).trust = d.trust := rfl
@[simp] theorem Dev.setField_peer (a lo w v : Nat) : (d.setField a lo w v).peer = d.peer := rfl
@[simp] theorem Dev.setField_power (a lo w v : Nat) : (d.setField a lo w v).power = d.power := rfl
@[simp] theorem Dev.setField_counters (a lo w v : Nat) : (d.setField a lo w v).counters = d.counters := rfl
@[simp] theorem Dev.setField_startUp (a lo w v : Nat) : (d.setField a lo w v).startUp = d.startUp := rfl
@[simp] theorem Dev.setField_mgmt (a lo w v : Nat) : (d.setField a lo w v).mgmt = d.mgmt := rfl
@[simp] theorem Dev.setField_protection (a lo w v : Nat) : (d.setField a lo w v).protection = d.protection := rfl
@[simp] theorem Dev.setField_out (a lo w v : Nat) : (d.setField a lo w v).out = d.out := rfl
@[simp] theorem Dev.setField_draws (a lo w v : Nat) : (d.setField a lo w v).draws = d.draws := rfl

/-! ### forgetWritten -/

@[simp] theorem Dev.forgetWritten_now (a : Nat) : (d.forgetWritten a).now = d.now := rfl
@[simp] theorem Dev.forgetWritten_grid (a : Nat) : (d.forgetWritten a).grid = d.grid := rfl
@[simp] theorem Dev.forgetWritten_crossing (a : Nat) : (d.forgetWritten a).crossing = d.crossing := rfl
@[simp] theorem Dev.forgetWritten_front (a : Nat) : (d.forgetWritten a).front = d.front := rfl
@[simp] theorem Dev.forgetWritten_control (a : Nat) : (d.forgetWritten a).control = d.control := rfl
@[simp] theorem Dev.forgetWritten_events (a : Nat) : (d.forgetWritten a).events = d.events := rfl
@[simp] theorem Dev.forgetWritten_endpoint (a : Nat) : (d.forgetWritten a).endpoint = d.endpoint := rfl
@[simp] theorem Dev.forgetWritten_transport (a : Nat) : (d.forgetWritten a).transport = d.transport := rfl
@[simp] theorem Dev.forgetWritten_memory (a : Nat) : (d.forgetWritten a).memory = d.memory := rfl
@[simp] theorem Dev.forgetWritten_chanters (a : Nat) : (d.forgetWritten a).chanters = d.chanters := rfl
@[simp] theorem Dev.forgetWritten_compression (a : Nat) : (d.forgetWritten a).compression = d.compression := rfl
@[simp] theorem Dev.forgetWritten_cipher (a : Nat) : (d.forgetWritten a).cipher = d.cipher := rfl
@[simp] theorem Dev.forgetWritten_stripes (a : Nat) : (d.forgetWritten a).stripes = d.stripes := rfl
@[simp] theorem Dev.forgetWritten_switch (a : Nat) : (d.forgetWritten a).switch = d.switch := rfl
@[simp] theorem Dev.forgetWritten_bays (a : Nat) : (d.forgetWritten a).bays = d.bays := rfl
@[simp] theorem Dev.forgetWritten_trust (a : Nat) : (d.forgetWritten a).trust = d.trust := rfl
@[simp] theorem Dev.forgetWritten_peer (a : Nat) : (d.forgetWritten a).peer = d.peer := rfl
@[simp] theorem Dev.forgetWritten_power (a : Nat) : (d.forgetWritten a).power = d.power := rfl
@[simp] theorem Dev.forgetWritten_counters (a : Nat) : (d.forgetWritten a).counters = d.counters := rfl
@[simp] theorem Dev.forgetWritten_startUp (a : Nat) : (d.forgetWritten a).startUp = d.startUp := rfl
@[simp] theorem Dev.forgetWritten_mgmt (a : Nat) : (d.forgetWritten a).mgmt = d.mgmt := rfl
@[simp] theorem Dev.forgetWritten_protection (a : Nat) : (d.forgetWritten a).protection = d.protection := rfl
@[simp] theorem Dev.forgetWritten_out (a : Nat) : (d.forgetWritten a).out = d.out := rfl
@[simp] theorem Dev.forgetWritten_draws (a : Nat) : (d.forgetWritten a).draws = d.draws := rfl

/-! ### count -/

@[simp] theorem Dev.count_now (a n : Nat) : (d.count a n).now = d.now := rfl
@[simp] theorem Dev.count_grid (a n : Nat) : (d.count a n).grid = d.grid := rfl
@[simp] theorem Dev.count_crossing (a n : Nat) : (d.count a n).crossing = d.crossing := rfl
@[simp] theorem Dev.count_front (a n : Nat) : (d.count a n).front = d.front := rfl
@[simp] theorem Dev.count_control (a n : Nat) : (d.count a n).control = d.control := rfl
@[simp] theorem Dev.count_events (a n : Nat) : (d.count a n).events = d.events := rfl
@[simp] theorem Dev.count_endpoint (a n : Nat) : (d.count a n).endpoint = d.endpoint := rfl
@[simp] theorem Dev.count_transport (a n : Nat) : (d.count a n).transport = d.transport := rfl
@[simp] theorem Dev.count_memory (a n : Nat) : (d.count a n).memory = d.memory := rfl
@[simp] theorem Dev.count_chanters (a n : Nat) : (d.count a n).chanters = d.chanters := rfl
@[simp] theorem Dev.count_compression (a n : Nat) : (d.count a n).compression = d.compression := rfl
@[simp] theorem Dev.count_cipher (a n : Nat) : (d.count a n).cipher = d.cipher := rfl
@[simp] theorem Dev.count_stripes (a n : Nat) : (d.count a n).stripes = d.stripes := rfl
@[simp] theorem Dev.count_switch (a n : Nat) : (d.count a n).switch = d.switch := rfl
@[simp] theorem Dev.count_bays (a n : Nat) : (d.count a n).bays = d.bays := rfl
@[simp] theorem Dev.count_trust (a n : Nat) : (d.count a n).trust = d.trust := rfl
@[simp] theorem Dev.count_peer (a n : Nat) : (d.count a n).peer = d.peer := rfl
@[simp] theorem Dev.count_power (a n : Nat) : (d.count a n).power = d.power := rfl
@[simp] theorem Dev.count_counters (a n : Nat) : (d.count a n).counters = d.counters := rfl
@[simp] theorem Dev.count_startUp (a n : Nat) : (d.count a n).startUp = d.startUp := rfl
@[simp] theorem Dev.count_mgmt (a n : Nat) : (d.count a n).mgmt = d.mgmt := rfl
@[simp] theorem Dev.count_protection (a n : Nat) : (d.count a n).protection = d.protection := rfl
@[simp] theorem Dev.count_out (a n : Nat) : (d.count a n).out = d.out := rfl
@[simp] theorem Dev.count_draws (a n : Nat) : (d.count a n).draws = d.draws := rfl

/-! ### total -/

@[simp] theorem Dev.total_now (a w n : Nat) : (d.total a w n).now = d.now := rfl
@[simp] theorem Dev.total_grid (a w n : Nat) : (d.total a w n).grid = d.grid := rfl
@[simp] theorem Dev.total_crossing (a w n : Nat) : (d.total a w n).crossing = d.crossing := rfl
@[simp] theorem Dev.total_front (a w n : Nat) : (d.total a w n).front = d.front := rfl
@[simp] theorem Dev.total_control (a w n : Nat) : (d.total a w n).control = d.control := rfl
@[simp] theorem Dev.total_events (a w n : Nat) : (d.total a w n).events = d.events := rfl
@[simp] theorem Dev.total_endpoint (a w n : Nat) : (d.total a w n).endpoint = d.endpoint := rfl
@[simp] theorem Dev.total_transport (a w n : Nat) : (d.total a w n).transport = d.transport := rfl
@[simp] theorem Dev.total_memory (a w n : Nat) : (d.total a w n).memory = d.memory := rfl
@[simp] theorem Dev.total_chanters (a w n : Nat) : (d.total a w n).chanters = d.chanters := rfl
@[simp] theorem Dev.total_compression (a w n : Nat) : (d.total a w n).compression = d.compression := rfl
@[simp] theorem Dev.total_cipher (a w n : Nat) : (d.total a w n).cipher = d.cipher := rfl
@[simp] theorem Dev.total_stripes (a w n : Nat) : (d.total a w n).stripes = d.stripes := rfl
@[simp] theorem Dev.total_switch (a w n : Nat) : (d.total a w n).switch = d.switch := rfl
@[simp] theorem Dev.total_bays (a w n : Nat) : (d.total a w n).bays = d.bays := rfl
@[simp] theorem Dev.total_trust (a w n : Nat) : (d.total a w n).trust = d.trust := rfl
@[simp] theorem Dev.total_peer (a w n : Nat) : (d.total a w n).peer = d.peer := rfl
@[simp] theorem Dev.total_power (a w n : Nat) : (d.total a w n).power = d.power := rfl
@[simp] theorem Dev.total_counters (a w n : Nat) : (d.total a w n).counters = d.counters := rfl
@[simp] theorem Dev.total_startUp (a w n : Nat) : (d.total a w n).startUp = d.startUp := rfl
@[simp] theorem Dev.total_mgmt (a w n : Nat) : (d.total a w n).mgmt = d.mgmt := rfl
@[simp] theorem Dev.total_protection (a w n : Nat) : (d.total a w n).protection = d.protection := rfl
@[simp] theorem Dev.total_out (a w n : Nat) : (d.total a w n).out = d.out := rfl
@[simp] theorem Dev.total_draws (a w n : Nat) : (d.total a w n).draws = d.draws := rfl

/-! ### emit -/

@[simp] theorem Dev.emit_now (o : Output) : (d.emit o).now = d.now := rfl
@[simp] theorem Dev.emit_grid (o : Output) : (d.emit o).grid = d.grid := rfl
@[simp] theorem Dev.emit_crossing (o : Output) : (d.emit o).crossing = d.crossing := rfl
@[simp] theorem Dev.emit_regs (o : Output) : (d.emit o).regs = d.regs := rfl
@[simp] theorem Dev.emit_front (o : Output) : (d.emit o).front = d.front := rfl
@[simp] theorem Dev.emit_control (o : Output) : (d.emit o).control = d.control := rfl
@[simp] theorem Dev.emit_events (o : Output) : (d.emit o).events = d.events := rfl
@[simp] theorem Dev.emit_endpoint (o : Output) : (d.emit o).endpoint = d.endpoint := rfl
@[simp] theorem Dev.emit_transport (o : Output) : (d.emit o).transport = d.transport := rfl
@[simp] theorem Dev.emit_memory (o : Output) : (d.emit o).memory = d.memory := rfl
@[simp] theorem Dev.emit_chanters (o : Output) : (d.emit o).chanters = d.chanters := rfl
@[simp] theorem Dev.emit_compression (o : Output) : (d.emit o).compression = d.compression := rfl
@[simp] theorem Dev.emit_cipher (o : Output) : (d.emit o).cipher = d.cipher := rfl
@[simp] theorem Dev.emit_stripes (o : Output) : (d.emit o).stripes = d.stripes := rfl
@[simp] theorem Dev.emit_switch (o : Output) : (d.emit o).switch = d.switch := rfl
@[simp] theorem Dev.emit_bays (o : Output) : (d.emit o).bays = d.bays := rfl
@[simp] theorem Dev.emit_trust (o : Output) : (d.emit o).trust = d.trust := rfl
@[simp] theorem Dev.emit_peer (o : Output) : (d.emit o).peer = d.peer := rfl
@[simp] theorem Dev.emit_power (o : Output) : (d.emit o).power = d.power := rfl
@[simp] theorem Dev.emit_counters (o : Output) : (d.emit o).counters = d.counters := rfl
@[simp] theorem Dev.emit_startUp (o : Output) : (d.emit o).startUp = d.startUp := rfl
@[simp] theorem Dev.emit_mgmt (o : Output) : (d.emit o).mgmt = d.mgmt := rfl
@[simp] theorem Dev.emit_protection (o : Output) : (d.emit o).protection = d.protection := rfl
@[simp] theorem Dev.emit_out (o : Output) : (d.emit o).out = o :: d.out := rfl
@[simp] theorem Dev.emit_draws (o : Output) : (d.emit o).draws = d.draws := rfl
@[simp] theorem Dev.emit_reg (o : Output) (x : Nat) : (d.emit o).reg x = d.reg x := rfl
@[simp] theorem Dev.emit_field (o : Output) (x l k : Nat) : (d.emit o).field x l k = d.field x l k := rfl

/-! ### clock -/

@[simp] theorem Dev.clock_now (t : Nat) : (d.clock t).now = t := rfl
@[simp] theorem Dev.clock_grid (t : Nat) : (d.clock t).grid = d.grid := rfl
@[simp] theorem Dev.clock_crossing (t : Nat) : (d.clock t).crossing = d.crossing := rfl
@[simp] theorem Dev.clock_regs (t : Nat) : (d.clock t).regs = d.regs := rfl
@[simp] theorem Dev.clock_front (t : Nat) : (d.clock t).front = d.front := rfl
@[simp] theorem Dev.clock_control (t : Nat) : (d.clock t).control = d.control := rfl
@[simp] theorem Dev.clock_events (t : Nat) : (d.clock t).events = d.events := rfl
@[simp] theorem Dev.clock_endpoint (t : Nat) : (d.clock t).endpoint = d.endpoint := rfl
@[simp] theorem Dev.clock_transport (t : Nat) : (d.clock t).transport = d.transport := rfl
@[simp] theorem Dev.clock_memory (t : Nat) : (d.clock t).memory = d.memory := rfl
@[simp] theorem Dev.clock_chanters (t : Nat) : (d.clock t).chanters = d.chanters := rfl
@[simp] theorem Dev.clock_compression (t : Nat) : (d.clock t).compression = d.compression := rfl
@[simp] theorem Dev.clock_cipher (t : Nat) : (d.clock t).cipher = d.cipher := rfl
@[simp] theorem Dev.clock_stripes (t : Nat) : (d.clock t).stripes = d.stripes := rfl
@[simp] theorem Dev.clock_switch (t : Nat) : (d.clock t).switch = d.switch := rfl
@[simp] theorem Dev.clock_bays (t : Nat) : (d.clock t).bays = d.bays := rfl
@[simp] theorem Dev.clock_trust (t : Nat) : (d.clock t).trust = d.trust := rfl
@[simp] theorem Dev.clock_peer (t : Nat) : (d.clock t).peer = d.peer := rfl
@[simp] theorem Dev.clock_power (t : Nat) : (d.clock t).power = d.power := rfl
@[simp] theorem Dev.clock_counters (t : Nat) : (d.clock t).counters = d.counters := rfl
@[simp] theorem Dev.clock_startUp (t : Nat) : (d.clock t).startUp = d.startUp := rfl
@[simp] theorem Dev.clock_mgmt (t : Nat) : (d.clock t).mgmt = d.mgmt := rfl
@[simp] theorem Dev.clock_protection (t : Nat) : (d.clock t).protection = d.protection := rfl
@[simp] theorem Dev.clock_out (t : Nat) : (d.clock t).out = d.out := rfl
@[simp] theorem Dev.clock_draws (t : Nat) : (d.clock t).draws = d.draws := rfl
@[simp] theorem Dev.clock_reg (t : Nat) (x : Nat) : (d.clock t).reg x = d.reg x := rfl
@[simp] theorem Dev.clock_field (t : Nat) (x l k : Nat) : (d.clock t).field x l k = d.field x l k := rfl

/-! ### onStripes -/

@[simp] theorem Dev.onStripes_now (f : Stripes → Stripes) : (d.onStripes f).now = d.now := rfl
@[simp] theorem Dev.onStripes_grid (f : Stripes → Stripes) : (d.onStripes f).grid = d.grid := rfl
@[simp] theorem Dev.onStripes_crossing (f : Stripes → Stripes) : (d.onStripes f).crossing = d.crossing := rfl
@[simp] theorem Dev.onStripes_regs (f : Stripes → Stripes) : (d.onStripes f).regs = d.regs := rfl
@[simp] theorem Dev.onStripes_front (f : Stripes → Stripes) : (d.onStripes f).front = d.front := rfl
@[simp] theorem Dev.onStripes_control (f : Stripes → Stripes) : (d.onStripes f).control = d.control := rfl
@[simp] theorem Dev.onStripes_events (f : Stripes → Stripes) : (d.onStripes f).events = d.events := rfl
@[simp] theorem Dev.onStripes_endpoint (f : Stripes → Stripes) : (d.onStripes f).endpoint = d.endpoint := rfl
@[simp] theorem Dev.onStripes_transport (f : Stripes → Stripes) : (d.onStripes f).transport = d.transport := rfl
@[simp] theorem Dev.onStripes_memory (f : Stripes → Stripes) : (d.onStripes f).memory = d.memory := rfl
@[simp] theorem Dev.onStripes_chanters (f : Stripes → Stripes) : (d.onStripes f).chanters = d.chanters := rfl
@[simp] theorem Dev.onStripes_compression (f : Stripes → Stripes) : (d.onStripes f).compression = d.compression := rfl
@[simp] theorem Dev.onStripes_cipher (f : Stripes → Stripes) : (d.onStripes f).cipher = d.cipher := rfl
@[simp] theorem Dev.onStripes_stripes (f : Stripes → Stripes) : (d.onStripes f).stripes = f d.stripes := rfl
@[simp] theorem Dev.onStripes_switch (f : Stripes → Stripes) : (d.onStripes f).switch = d.switch := rfl
@[simp] theorem Dev.onStripes_bays (f : Stripes → Stripes) : (d.onStripes f).bays = d.bays := rfl
@[simp] theorem Dev.onStripes_trust (f : Stripes → Stripes) : (d.onStripes f).trust = d.trust := rfl
@[simp] theorem Dev.onStripes_peer (f : Stripes → Stripes) : (d.onStripes f).peer = d.peer := rfl
@[simp] theorem Dev.onStripes_power (f : Stripes → Stripes) : (d.onStripes f).power = d.power := rfl
@[simp] theorem Dev.onStripes_counters (f : Stripes → Stripes) : (d.onStripes f).counters = d.counters := rfl
@[simp] theorem Dev.onStripes_startUp (f : Stripes → Stripes) : (d.onStripes f).startUp = d.startUp := rfl
@[simp] theorem Dev.onStripes_mgmt (f : Stripes → Stripes) : (d.onStripes f).mgmt = d.mgmt := rfl
@[simp] theorem Dev.onStripes_protection (f : Stripes → Stripes) : (d.onStripes f).protection = d.protection := rfl
@[simp] theorem Dev.onStripes_out (f : Stripes → Stripes) : (d.onStripes f).out = d.out := rfl
@[simp] theorem Dev.onStripes_draws (f : Stripes → Stripes) : (d.onStripes f).draws = d.draws := rfl
@[simp] theorem Dev.onStripes_reg (f : Stripes → Stripes) (x : Nat) : (d.onStripes f).reg x = d.reg x := rfl
@[simp] theorem Dev.onStripes_field (f : Stripes → Stripes) (x l k : Nat) : (d.onStripes f).field x l k = d.field x l k := rfl

/-! ### onPower -/

@[simp] theorem Dev.onPower_now (f : Power → Power) : (d.onPower f).now = d.now := rfl
@[simp] theorem Dev.onPower_grid (f : Power → Power) : (d.onPower f).grid = d.grid := rfl
@[simp] theorem Dev.onPower_crossing (f : Power → Power) : (d.onPower f).crossing = d.crossing := rfl
@[simp] theorem Dev.onPower_regs (f : Power → Power) : (d.onPower f).regs = d.regs := rfl
@[simp] theorem Dev.onPower_front (f : Power → Power) : (d.onPower f).front = d.front := rfl
@[simp] theorem Dev.onPower_control (f : Power → Power) : (d.onPower f).control = d.control := rfl
@[simp] theorem Dev.onPower_events (f : Power → Power) : (d.onPower f).events = d.events := rfl
@[simp] theorem Dev.onPower_endpoint (f : Power → Power) : (d.onPower f).endpoint = d.endpoint := rfl
@[simp] theorem Dev.onPower_transport (f : Power → Power) : (d.onPower f).transport = d.transport := rfl
@[simp] theorem Dev.onPower_memory (f : Power → Power) : (d.onPower f).memory = d.memory := rfl
@[simp] theorem Dev.onPower_chanters (f : Power → Power) : (d.onPower f).chanters = d.chanters := rfl
@[simp] theorem Dev.onPower_compression (f : Power → Power) : (d.onPower f).compression = d.compression := rfl
@[simp] theorem Dev.onPower_cipher (f : Power → Power) : (d.onPower f).cipher = d.cipher := rfl
@[simp] theorem Dev.onPower_stripes (f : Power → Power) : (d.onPower f).stripes = d.stripes := rfl
@[simp] theorem Dev.onPower_switch (f : Power → Power) : (d.onPower f).switch = d.switch := rfl
@[simp] theorem Dev.onPower_bays (f : Power → Power) : (d.onPower f).bays = d.bays := rfl
@[simp] theorem Dev.onPower_trust (f : Power → Power) : (d.onPower f).trust = d.trust := rfl
@[simp] theorem Dev.onPower_peer (f : Power → Power) : (d.onPower f).peer = d.peer := rfl
@[simp] theorem Dev.onPower_power (f : Power → Power) : (d.onPower f).power = f d.power := rfl
@[simp] theorem Dev.onPower_counters (f : Power → Power) : (d.onPower f).counters = d.counters := rfl
@[simp] theorem Dev.onPower_startUp (f : Power → Power) : (d.onPower f).startUp = d.startUp := rfl
@[simp] theorem Dev.onPower_mgmt (f : Power → Power) : (d.onPower f).mgmt = d.mgmt := rfl
@[simp] theorem Dev.onPower_protection (f : Power → Power) : (d.onPower f).protection = d.protection := rfl
@[simp] theorem Dev.onPower_out (f : Power → Power) : (d.onPower f).out = d.out := rfl
@[simp] theorem Dev.onPower_draws (f : Power → Power) : (d.onPower f).draws = d.draws := rfl
@[simp] theorem Dev.onPower_reg (f : Power → Power) (x : Nat) : (d.onPower f).reg x = d.reg x := rfl
@[simp] theorem Dev.onPower_field (f : Power → Power) (x l k : Nat) : (d.onPower f).field x l k = d.field x l k := rfl

/-! ### onPeer -/

@[simp] theorem Dev.onPeer_now (f : Peer → Peer) : (d.onPeer f).now = d.now := rfl
@[simp] theorem Dev.onPeer_grid (f : Peer → Peer) : (d.onPeer f).grid = d.grid := rfl
@[simp] theorem Dev.onPeer_crossing (f : Peer → Peer) : (d.onPeer f).crossing = d.crossing := rfl
@[simp] theorem Dev.onPeer_regs (f : Peer → Peer) : (d.onPeer f).regs = d.regs := rfl
@[simp] theorem Dev.onPeer_front (f : Peer → Peer) : (d.onPeer f).front = d.front := rfl
@[simp] theorem Dev.onPeer_control (f : Peer → Peer) : (d.onPeer f).control = d.control := rfl
@[simp] theorem Dev.onPeer_events (f : Peer → Peer) : (d.onPeer f).events = d.events := rfl
@[simp] theorem Dev.onPeer_endpoint (f : Peer → Peer) : (d.onPeer f).endpoint = d.endpoint := rfl
@[simp] theorem Dev.onPeer_transport (f : Peer → Peer) : (d.onPeer f).transport = d.transport := rfl
@[simp] theorem Dev.onPeer_memory (f : Peer → Peer) : (d.onPeer f).memory = d.memory := rfl
@[simp] theorem Dev.onPeer_chanters (f : Peer → Peer) : (d.onPeer f).chanters = d.chanters := rfl
@[simp] theorem Dev.onPeer_compression (f : Peer → Peer) : (d.onPeer f).compression = d.compression := rfl
@[simp] theorem Dev.onPeer_cipher (f : Peer → Peer) : (d.onPeer f).cipher = d.cipher := rfl
@[simp] theorem Dev.onPeer_stripes (f : Peer → Peer) : (d.onPeer f).stripes = d.stripes := rfl
@[simp] theorem Dev.onPeer_switch (f : Peer → Peer) : (d.onPeer f).switch = d.switch := rfl
@[simp] theorem Dev.onPeer_bays (f : Peer → Peer) : (d.onPeer f).bays = d.bays := rfl
@[simp] theorem Dev.onPeer_trust (f : Peer → Peer) : (d.onPeer f).trust = d.trust := rfl
@[simp] theorem Dev.onPeer_peer (f : Peer → Peer) : (d.onPeer f).peer = f d.peer := rfl
@[simp] theorem Dev.onPeer_power (f : Peer → Peer) : (d.onPeer f).power = d.power := rfl
@[simp] theorem Dev.onPeer_counters (f : Peer → Peer) : (d.onPeer f).counters = d.counters := rfl
@[simp] theorem Dev.onPeer_startUp (f : Peer → Peer) : (d.onPeer f).startUp = d.startUp := rfl
@[simp] theorem Dev.onPeer_mgmt (f : Peer → Peer) : (d.onPeer f).mgmt = d.mgmt := rfl
@[simp] theorem Dev.onPeer_protection (f : Peer → Peer) : (d.onPeer f).protection = d.protection := rfl
@[simp] theorem Dev.onPeer_out (f : Peer → Peer) : (d.onPeer f).out = d.out := rfl
@[simp] theorem Dev.onPeer_draws (f : Peer → Peer) : (d.onPeer f).draws = d.draws := rfl
@[simp] theorem Dev.onPeer_reg (f : Peer → Peer) (x : Nat) : (d.onPeer f).reg x = d.reg x := rfl
@[simp] theorem Dev.onPeer_field (f : Peer → Peer) (x l k : Nat) : (d.onPeer f).field x l k = d.field x l k := rfl

/-! ### onTrust -/

@[simp] theorem Dev.onTrust_now (f : Trust → Trust) : (d.onTrust f).now = d.now := rfl
@[simp] theorem Dev.onTrust_grid (f : Trust → Trust) : (d.onTrust f).grid = d.grid := rfl
@[simp] theorem Dev.onTrust_crossing (f : Trust → Trust) : (d.onTrust f).crossing = d.crossing := rfl
@[simp] theorem Dev.onTrust_regs (f : Trust → Trust) : (d.onTrust f).regs = d.regs := rfl
@[simp] theorem Dev.onTrust_front (f : Trust → Trust) : (d.onTrust f).front = d.front := rfl
@[simp] theorem Dev.onTrust_control (f : Trust → Trust) : (d.onTrust f).control = d.control := rfl
@[simp] theorem Dev.onTrust_events (f : Trust → Trust) : (d.onTrust f).events = d.events := rfl
@[simp] theorem Dev.onTrust_endpoint (f : Trust → Trust) : (d.onTrust f).endpoint = d.endpoint := rfl
@[simp] theorem Dev.onTrust_transport (f : Trust → Trust) : (d.onTrust f).transport = d.transport := rfl
@[simp] theorem Dev.onTrust_memory (f : Trust → Trust) : (d.onTrust f).memory = d.memory := rfl
@[simp] theorem Dev.onTrust_chanters (f : Trust → Trust) : (d.onTrust f).chanters = d.chanters := rfl
@[simp] theorem Dev.onTrust_compression (f : Trust → Trust) : (d.onTrust f).compression = d.compression := rfl
@[simp] theorem Dev.onTrust_cipher (f : Trust → Trust) : (d.onTrust f).cipher = d.cipher := rfl
@[simp] theorem Dev.onTrust_stripes (f : Trust → Trust) : (d.onTrust f).stripes = d.stripes := rfl
@[simp] theorem Dev.onTrust_switch (f : Trust → Trust) : (d.onTrust f).switch = d.switch := rfl
@[simp] theorem Dev.onTrust_bays (f : Trust → Trust) : (d.onTrust f).bays = d.bays := rfl
@[simp] theorem Dev.onTrust_trust (f : Trust → Trust) : (d.onTrust f).trust = f d.trust := rfl
@[simp] theorem Dev.onTrust_peer (f : Trust → Trust) : (d.onTrust f).peer = d.peer := rfl
@[simp] theorem Dev.onTrust_power (f : Trust → Trust) : (d.onTrust f).power = d.power := rfl
@[simp] theorem Dev.onTrust_counters (f : Trust → Trust) : (d.onTrust f).counters = d.counters := rfl
@[simp] theorem Dev.onTrust_startUp (f : Trust → Trust) : (d.onTrust f).startUp = d.startUp := rfl
@[simp] theorem Dev.onTrust_mgmt (f : Trust → Trust) : (d.onTrust f).mgmt = d.mgmt := rfl
@[simp] theorem Dev.onTrust_protection (f : Trust → Trust) : (d.onTrust f).protection = d.protection := rfl
@[simp] theorem Dev.onTrust_out (f : Trust → Trust) : (d.onTrust f).out = d.out := rfl
@[simp] theorem Dev.onTrust_draws (f : Trust → Trust) : (d.onTrust f).draws = d.draws := rfl
@[simp] theorem Dev.onTrust_reg (f : Trust → Trust) (x : Nat) : (d.onTrust f).reg x = d.reg x := rfl
@[simp] theorem Dev.onTrust_field (f : Trust → Trust) (x l k : Nat) : (d.onTrust f).field x l k = d.field x l k := rfl

/-! ### onGrid -/

@[simp] theorem Dev.onGrid_now (f : Grid → Grid) : (d.onGrid f).now = d.now := rfl
@[simp] theorem Dev.onGrid_grid (f : Grid → Grid) : (d.onGrid f).grid = f d.grid := rfl
@[simp] theorem Dev.onGrid_crossing (f : Grid → Grid) : (d.onGrid f).crossing = d.crossing := rfl
@[simp] theorem Dev.onGrid_regs (f : Grid → Grid) : (d.onGrid f).regs = d.regs := rfl
@[simp] theorem Dev.onGrid_front (f : Grid → Grid) : (d.onGrid f).front = d.front := rfl
@[simp] theorem Dev.onGrid_control (f : Grid → Grid) : (d.onGrid f).control = d.control := rfl
@[simp] theorem Dev.onGrid_events (f : Grid → Grid) : (d.onGrid f).events = d.events := rfl
@[simp] theorem Dev.onGrid_endpoint (f : Grid → Grid) : (d.onGrid f).endpoint = d.endpoint := rfl
@[simp] theorem Dev.onGrid_transport (f : Grid → Grid) : (d.onGrid f).transport = d.transport := rfl
@[simp] theorem Dev.onGrid_memory (f : Grid → Grid) : (d.onGrid f).memory = d.memory := rfl
@[simp] theorem Dev.onGrid_chanters (f : Grid → Grid) : (d.onGrid f).chanters = d.chanters := rfl
@[simp] theorem Dev.onGrid_compression (f : Grid → Grid) : (d.onGrid f).compression = d.compression := rfl
@[simp] theorem Dev.onGrid_cipher (f : Grid → Grid) : (d.onGrid f).cipher = d.cipher := rfl
@[simp] theorem Dev.onGrid_stripes (f : Grid → Grid) : (d.onGrid f).stripes = d.stripes := rfl
@[simp] theorem Dev.onGrid_switch (f : Grid → Grid) : (d.onGrid f).switch = d.switch := rfl
@[simp] theorem Dev.onGrid_bays (f : Grid → Grid) : (d.onGrid f).bays = d.bays := rfl
@[simp] theorem Dev.onGrid_trust (f : Grid → Grid) : (d.onGrid f).trust = d.trust := rfl
@[simp] theorem Dev.onGrid_peer (f : Grid → Grid) : (d.onGrid f).peer = d.peer := rfl
@[simp] theorem Dev.onGrid_power (f : Grid → Grid) : (d.onGrid f).power = d.power := rfl
@[simp] theorem Dev.onGrid_counters (f : Grid → Grid) : (d.onGrid f).counters = d.counters := rfl
@[simp] theorem Dev.onGrid_startUp (f : Grid → Grid) : (d.onGrid f).startUp = d.startUp := rfl
@[simp] theorem Dev.onGrid_mgmt (f : Grid → Grid) : (d.onGrid f).mgmt = d.mgmt := rfl
@[simp] theorem Dev.onGrid_protection (f : Grid → Grid) : (d.onGrid f).protection = d.protection := rfl
@[simp] theorem Dev.onGrid_out (f : Grid → Grid) : (d.onGrid f).out = d.out := rfl
@[simp] theorem Dev.onGrid_draws (f : Grid → Grid) : (d.onGrid f).draws = d.draws := rfl
@[simp] theorem Dev.onGrid_reg (f : Grid → Grid) (x : Nat) : (d.onGrid f).reg x = d.reg x := rfl
@[simp] theorem Dev.onGrid_field (f : Grid → Grid) (x l k : Nat) : (d.onGrid f).field x l k = d.field x l k := rfl

/-! ### onFront -/

@[simp] theorem Dev.onFront_now (f : Front → Front) : (d.onFront f).now = d.now := rfl
@[simp] theorem Dev.onFront_grid (f : Front → Front) : (d.onFront f).grid = d.grid := rfl
@[simp] theorem Dev.onFront_crossing (f : Front → Front) : (d.onFront f).crossing = d.crossing := rfl
@[simp] theorem Dev.onFront_regs (f : Front → Front) : (d.onFront f).regs = d.regs := rfl
@[simp] theorem Dev.onFront_front (f : Front → Front) : (d.onFront f).front = f d.front := rfl
@[simp] theorem Dev.onFront_control (f : Front → Front) : (d.onFront f).control = d.control := rfl
@[simp] theorem Dev.onFront_events (f : Front → Front) : (d.onFront f).events = d.events := rfl
@[simp] theorem Dev.onFront_endpoint (f : Front → Front) : (d.onFront f).endpoint = d.endpoint := rfl
@[simp] theorem Dev.onFront_transport (f : Front → Front) : (d.onFront f).transport = d.transport := rfl
@[simp] theorem Dev.onFront_memory (f : Front → Front) : (d.onFront f).memory = d.memory := rfl
@[simp] theorem Dev.onFront_chanters (f : Front → Front) : (d.onFront f).chanters = d.chanters := rfl
@[simp] theorem Dev.onFront_compression (f : Front → Front) : (d.onFront f).compression = d.compression := rfl
@[simp] theorem Dev.onFront_cipher (f : Front → Front) : (d.onFront f).cipher = d.cipher := rfl
@[simp] theorem Dev.onFront_stripes (f : Front → Front) : (d.onFront f).stripes = d.stripes := rfl
@[simp] theorem Dev.onFront_switch (f : Front → Front) : (d.onFront f).switch = d.switch := rfl
@[simp] theorem Dev.onFront_bays (f : Front → Front) : (d.onFront f).bays = d.bays := rfl
@[simp] theorem Dev.onFront_trust (f : Front → Front) : (d.onFront f).trust = d.trust := rfl
@[simp] theorem Dev.onFront_peer (f : Front → Front) : (d.onFront f).peer = d.peer := rfl
@[simp] theorem Dev.onFront_power (f : Front → Front) : (d.onFront f).power = d.power := rfl
@[simp] theorem Dev.onFront_counters (f : Front → Front) : (d.onFront f).counters = d.counters := rfl
@[simp] theorem Dev.onFront_startUp (f : Front → Front) : (d.onFront f).startUp = d.startUp := rfl
@[simp] theorem Dev.onFront_mgmt (f : Front → Front) : (d.onFront f).mgmt = d.mgmt := rfl
@[simp] theorem Dev.onFront_protection (f : Front → Front) : (d.onFront f).protection = d.protection := rfl
@[simp] theorem Dev.onFront_out (f : Front → Front) : (d.onFront f).out = d.out := rfl
@[simp] theorem Dev.onFront_draws (f : Front → Front) : (d.onFront f).draws = d.draws := rfl
@[simp] theorem Dev.onFront_reg (f : Front → Front) (x : Nat) : (d.onFront f).reg x = d.reg x := rfl
@[simp] theorem Dev.onFront_field (f : Front → Front) (x l k : Nat) : (d.onFront f).field x l k = d.field x l k := rfl

/-! ### onControl -/

@[simp] theorem Dev.onControl_now (f : Control → Control) : (d.onControl f).now = d.now := rfl
@[simp] theorem Dev.onControl_grid (f : Control → Control) : (d.onControl f).grid = d.grid := rfl
@[simp] theorem Dev.onControl_crossing (f : Control → Control) : (d.onControl f).crossing = d.crossing := rfl
@[simp] theorem Dev.onControl_regs (f : Control → Control) : (d.onControl f).regs = d.regs := rfl
@[simp] theorem Dev.onControl_front (f : Control → Control) : (d.onControl f).front = d.front := rfl
@[simp] theorem Dev.onControl_control (f : Control → Control) : (d.onControl f).control = f d.control := rfl
@[simp] theorem Dev.onControl_events (f : Control → Control) : (d.onControl f).events = d.events := rfl
@[simp] theorem Dev.onControl_endpoint (f : Control → Control) : (d.onControl f).endpoint = d.endpoint := rfl
@[simp] theorem Dev.onControl_transport (f : Control → Control) : (d.onControl f).transport = d.transport := rfl
@[simp] theorem Dev.onControl_memory (f : Control → Control) : (d.onControl f).memory = d.memory := rfl
@[simp] theorem Dev.onControl_chanters (f : Control → Control) : (d.onControl f).chanters = d.chanters := rfl
@[simp] theorem Dev.onControl_compression (f : Control → Control) : (d.onControl f).compression = d.compression := rfl
@[simp] theorem Dev.onControl_cipher (f : Control → Control) : (d.onControl f).cipher = d.cipher := rfl
@[simp] theorem Dev.onControl_stripes (f : Control → Control) : (d.onControl f).stripes = d.stripes := rfl
@[simp] theorem Dev.onControl_switch (f : Control → Control) : (d.onControl f).switch = d.switch := rfl
@[simp] theorem Dev.onControl_bays (f : Control → Control) : (d.onControl f).bays = d.bays := rfl
@[simp] theorem Dev.onControl_trust (f : Control → Control) : (d.onControl f).trust = d.trust := rfl
@[simp] theorem Dev.onControl_peer (f : Control → Control) : (d.onControl f).peer = d.peer := rfl
@[simp] theorem Dev.onControl_power (f : Control → Control) : (d.onControl f).power = d.power := rfl
@[simp] theorem Dev.onControl_counters (f : Control → Control) : (d.onControl f).counters = d.counters := rfl
@[simp] theorem Dev.onControl_startUp (f : Control → Control) : (d.onControl f).startUp = d.startUp := rfl
@[simp] theorem Dev.onControl_mgmt (f : Control → Control) : (d.onControl f).mgmt = d.mgmt := rfl
@[simp] theorem Dev.onControl_protection (f : Control → Control) : (d.onControl f).protection = d.protection := rfl
@[simp] theorem Dev.onControl_out (f : Control → Control) : (d.onControl f).out = d.out := rfl
@[simp] theorem Dev.onControl_draws (f : Control → Control) : (d.onControl f).draws = d.draws := rfl
@[simp] theorem Dev.onControl_reg (f : Control → Control) (x : Nat) : (d.onControl f).reg x = d.reg x := rfl
@[simp] theorem Dev.onControl_field (f : Control → Control) (x l k : Nat) : (d.onControl f).field x l k = d.field x l k := rfl

/-! ### onEndpoint -/

@[simp] theorem Dev.onEndpoint_now (f : Endpoint → Endpoint) : (d.onEndpoint f).now = d.now := rfl
@[simp] theorem Dev.onEndpoint_grid (f : Endpoint → Endpoint) : (d.onEndpoint f).grid = d.grid := rfl
@[simp] theorem Dev.onEndpoint_crossing (f : Endpoint → Endpoint) : (d.onEndpoint f).crossing = d.crossing := rfl
@[simp] theorem Dev.onEndpoint_regs (f : Endpoint → Endpoint) : (d.onEndpoint f).regs = d.regs := rfl
@[simp] theorem Dev.onEndpoint_front (f : Endpoint → Endpoint) : (d.onEndpoint f).front = d.front := rfl
@[simp] theorem Dev.onEndpoint_control (f : Endpoint → Endpoint) : (d.onEndpoint f).control = d.control := rfl
@[simp] theorem Dev.onEndpoint_events (f : Endpoint → Endpoint) : (d.onEndpoint f).events = d.events := rfl
@[simp] theorem Dev.onEndpoint_endpoint (f : Endpoint → Endpoint) : (d.onEndpoint f).endpoint = f d.endpoint := rfl
@[simp] theorem Dev.onEndpoint_transport (f : Endpoint → Endpoint) : (d.onEndpoint f).transport = d.transport := rfl
@[simp] theorem Dev.onEndpoint_memory (f : Endpoint → Endpoint) : (d.onEndpoint f).memory = d.memory := rfl
@[simp] theorem Dev.onEndpoint_chanters (f : Endpoint → Endpoint) : (d.onEndpoint f).chanters = d.chanters := rfl
@[simp] theorem Dev.onEndpoint_compression (f : Endpoint → Endpoint) : (d.onEndpoint f).compression = d.compression := rfl
@[simp] theorem Dev.onEndpoint_cipher (f : Endpoint → Endpoint) : (d.onEndpoint f).cipher = d.cipher := rfl
@[simp] theorem Dev.onEndpoint_stripes (f : Endpoint → Endpoint) : (d.onEndpoint f).stripes = d.stripes := rfl
@[simp] theorem Dev.onEndpoint_switch (f : Endpoint → Endpoint) : (d.onEndpoint f).switch = d.switch := rfl
@[simp] theorem Dev.onEndpoint_bays (f : Endpoint → Endpoint) : (d.onEndpoint f).bays = d.bays := rfl
@[simp] theorem Dev.onEndpoint_trust (f : Endpoint → Endpoint) : (d.onEndpoint f).trust = d.trust := rfl
@[simp] theorem Dev.onEndpoint_peer (f : Endpoint → Endpoint) : (d.onEndpoint f).peer = d.peer := rfl
@[simp] theorem Dev.onEndpoint_power (f : Endpoint → Endpoint) : (d.onEndpoint f).power = d.power := rfl
@[simp] theorem Dev.onEndpoint_counters (f : Endpoint → Endpoint) : (d.onEndpoint f).counters = d.counters := rfl
@[simp] theorem Dev.onEndpoint_startUp (f : Endpoint → Endpoint) : (d.onEndpoint f).startUp = d.startUp := rfl
@[simp] theorem Dev.onEndpoint_mgmt (f : Endpoint → Endpoint) : (d.onEndpoint f).mgmt = d.mgmt := rfl
@[simp] theorem Dev.onEndpoint_protection (f : Endpoint → Endpoint) : (d.onEndpoint f).protection = d.protection := rfl
@[simp] theorem Dev.onEndpoint_out (f : Endpoint → Endpoint) : (d.onEndpoint f).out = d.out := rfl
@[simp] theorem Dev.onEndpoint_draws (f : Endpoint → Endpoint) : (d.onEndpoint f).draws = d.draws := rfl
@[simp] theorem Dev.onEndpoint_reg (f : Endpoint → Endpoint) (x : Nat) : (d.onEndpoint f).reg x = d.reg x := rfl
@[simp] theorem Dev.onEndpoint_field (f : Endpoint → Endpoint) (x l k : Nat) : (d.onEndpoint f).field x l k = d.field x l k := rfl

/-! ### onTransport -/

@[simp] theorem Dev.onTransport_now (f : Transport → Transport) : (d.onTransport f).now = d.now := rfl
@[simp] theorem Dev.onTransport_grid (f : Transport → Transport) : (d.onTransport f).grid = d.grid := rfl
@[simp] theorem Dev.onTransport_crossing (f : Transport → Transport) : (d.onTransport f).crossing = d.crossing := rfl
@[simp] theorem Dev.onTransport_regs (f : Transport → Transport) : (d.onTransport f).regs = d.regs := rfl
@[simp] theorem Dev.onTransport_front (f : Transport → Transport) : (d.onTransport f).front = d.front := rfl
@[simp] theorem Dev.onTransport_control (f : Transport → Transport) : (d.onTransport f).control = d.control := rfl
@[simp] theorem Dev.onTransport_events (f : Transport → Transport) : (d.onTransport f).events = d.events := rfl
@[simp] theorem Dev.onTransport_endpoint (f : Transport → Transport) : (d.onTransport f).endpoint = d.endpoint := rfl
@[simp] theorem Dev.onTransport_transport (f : Transport → Transport) : (d.onTransport f).transport = f d.transport := rfl
@[simp] theorem Dev.onTransport_memory (f : Transport → Transport) : (d.onTransport f).memory = d.memory := rfl
@[simp] theorem Dev.onTransport_chanters (f : Transport → Transport) : (d.onTransport f).chanters = d.chanters := rfl
@[simp] theorem Dev.onTransport_compression (f : Transport → Transport) : (d.onTransport f).compression = d.compression := rfl
@[simp] theorem Dev.onTransport_cipher (f : Transport → Transport) : (d.onTransport f).cipher = d.cipher := rfl
@[simp] theorem Dev.onTransport_stripes (f : Transport → Transport) : (d.onTransport f).stripes = d.stripes := rfl
@[simp] theorem Dev.onTransport_switch (f : Transport → Transport) : (d.onTransport f).switch = d.switch := rfl
@[simp] theorem Dev.onTransport_bays (f : Transport → Transport) : (d.onTransport f).bays = d.bays := rfl
@[simp] theorem Dev.onTransport_trust (f : Transport → Transport) : (d.onTransport f).trust = d.trust := rfl
@[simp] theorem Dev.onTransport_peer (f : Transport → Transport) : (d.onTransport f).peer = d.peer := rfl
@[simp] theorem Dev.onTransport_power (f : Transport → Transport) : (d.onTransport f).power = d.power := rfl
@[simp] theorem Dev.onTransport_counters (f : Transport → Transport) : (d.onTransport f).counters = d.counters := rfl
@[simp] theorem Dev.onTransport_startUp (f : Transport → Transport) : (d.onTransport f).startUp = d.startUp := rfl
@[simp] theorem Dev.onTransport_mgmt (f : Transport → Transport) : (d.onTransport f).mgmt = d.mgmt := rfl
@[simp] theorem Dev.onTransport_protection (f : Transport → Transport) : (d.onTransport f).protection = d.protection := rfl
@[simp] theorem Dev.onTransport_out (f : Transport → Transport) : (d.onTransport f).out = d.out := rfl
@[simp] theorem Dev.onTransport_draws (f : Transport → Transport) : (d.onTransport f).draws = d.draws := rfl
@[simp] theorem Dev.onTransport_reg (f : Transport → Transport) (x : Nat) : (d.onTransport f).reg x = d.reg x := rfl
@[simp] theorem Dev.onTransport_field (f : Transport → Transport) (x l k : Nat) : (d.onTransport f).field x l k = d.field x l k := rfl

/-! ### onMemory -/

@[simp] theorem Dev.onMemory_now (f : Memory → Memory) : (d.onMemory f).now = d.now := rfl
@[simp] theorem Dev.onMemory_grid (f : Memory → Memory) : (d.onMemory f).grid = d.grid := rfl
@[simp] theorem Dev.onMemory_crossing (f : Memory → Memory) : (d.onMemory f).crossing = d.crossing := rfl
@[simp] theorem Dev.onMemory_regs (f : Memory → Memory) : (d.onMemory f).regs = d.regs := rfl
@[simp] theorem Dev.onMemory_front (f : Memory → Memory) : (d.onMemory f).front = d.front := rfl
@[simp] theorem Dev.onMemory_control (f : Memory → Memory) : (d.onMemory f).control = d.control := rfl
@[simp] theorem Dev.onMemory_events (f : Memory → Memory) : (d.onMemory f).events = d.events := rfl
@[simp] theorem Dev.onMemory_endpoint (f : Memory → Memory) : (d.onMemory f).endpoint = d.endpoint := rfl
@[simp] theorem Dev.onMemory_transport (f : Memory → Memory) : (d.onMemory f).transport = d.transport := rfl
@[simp] theorem Dev.onMemory_memory (f : Memory → Memory) : (d.onMemory f).memory = f d.memory := rfl
@[simp] theorem Dev.onMemory_chanters (f : Memory → Memory) : (d.onMemory f).chanters = d.chanters := rfl
@[simp] theorem Dev.onMemory_compression (f : Memory → Memory) : (d.onMemory f).compression = d.compression := rfl
@[simp] theorem Dev.onMemory_cipher (f : Memory → Memory) : (d.onMemory f).cipher = d.cipher := rfl
@[simp] theorem Dev.onMemory_stripes (f : Memory → Memory) : (d.onMemory f).stripes = d.stripes := rfl
@[simp] theorem Dev.onMemory_switch (f : Memory → Memory) : (d.onMemory f).switch = d.switch := rfl
@[simp] theorem Dev.onMemory_bays (f : Memory → Memory) : (d.onMemory f).bays = d.bays := rfl
@[simp] theorem Dev.onMemory_trust (f : Memory → Memory) : (d.onMemory f).trust = d.trust := rfl
@[simp] theorem Dev.onMemory_peer (f : Memory → Memory) : (d.onMemory f).peer = d.peer := rfl
@[simp] theorem Dev.onMemory_power (f : Memory → Memory) : (d.onMemory f).power = d.power := rfl
@[simp] theorem Dev.onMemory_counters (f : Memory → Memory) : (d.onMemory f).counters = d.counters := rfl
@[simp] theorem Dev.onMemory_startUp (f : Memory → Memory) : (d.onMemory f).startUp = d.startUp := rfl
@[simp] theorem Dev.onMemory_mgmt (f : Memory → Memory) : (d.onMemory f).mgmt = d.mgmt := rfl
@[simp] theorem Dev.onMemory_protection (f : Memory → Memory) : (d.onMemory f).protection = d.protection := rfl
@[simp] theorem Dev.onMemory_out (f : Memory → Memory) : (d.onMemory f).out = d.out := rfl
@[simp] theorem Dev.onMemory_draws (f : Memory → Memory) : (d.onMemory f).draws = d.draws := rfl
@[simp] theorem Dev.onMemory_reg (f : Memory → Memory) (x : Nat) : (d.onMemory f).reg x = d.reg x := rfl
@[simp] theorem Dev.onMemory_field (f : Memory → Memory) (x l k : Nat) : (d.onMemory f).field x l k = d.field x l k := rfl

/-! ### onSwitch -/

@[simp] theorem Dev.onSwitch_now (f : Switch → Switch) : (d.onSwitch f).now = d.now := rfl
@[simp] theorem Dev.onSwitch_grid (f : Switch → Switch) : (d.onSwitch f).grid = d.grid := rfl
@[simp] theorem Dev.onSwitch_crossing (f : Switch → Switch) : (d.onSwitch f).crossing = d.crossing := rfl
@[simp] theorem Dev.onSwitch_regs (f : Switch → Switch) : (d.onSwitch f).regs = d.regs := rfl
@[simp] theorem Dev.onSwitch_front (f : Switch → Switch) : (d.onSwitch f).front = d.front := rfl
@[simp] theorem Dev.onSwitch_control (f : Switch → Switch) : (d.onSwitch f).control = d.control := rfl
@[simp] theorem Dev.onSwitch_events (f : Switch → Switch) : (d.onSwitch f).events = d.events := rfl
@[simp] theorem Dev.onSwitch_endpoint (f : Switch → Switch) : (d.onSwitch f).endpoint = d.endpoint := rfl
@[simp] theorem Dev.onSwitch_transport (f : Switch → Switch) : (d.onSwitch f).transport = d.transport := rfl
@[simp] theorem Dev.onSwitch_memory (f : Switch → Switch) : (d.onSwitch f).memory = d.memory := rfl
@[simp] theorem Dev.onSwitch_chanters (f : Switch → Switch) : (d.onSwitch f).chanters = d.chanters := rfl
@[simp] theorem Dev.onSwitch_compression (f : Switch → Switch) : (d.onSwitch f).compression = d.compression := rfl
@[simp] theorem Dev.onSwitch_cipher (f : Switch → Switch) : (d.onSwitch f).cipher = d.cipher := rfl
@[simp] theorem Dev.onSwitch_stripes (f : Switch → Switch) : (d.onSwitch f).stripes = d.stripes := rfl
@[simp] theorem Dev.onSwitch_switch (f : Switch → Switch) : (d.onSwitch f).switch = f d.switch := rfl
@[simp] theorem Dev.onSwitch_bays (f : Switch → Switch) : (d.onSwitch f).bays = d.bays := rfl
@[simp] theorem Dev.onSwitch_trust (f : Switch → Switch) : (d.onSwitch f).trust = d.trust := rfl
@[simp] theorem Dev.onSwitch_peer (f : Switch → Switch) : (d.onSwitch f).peer = d.peer := rfl
@[simp] theorem Dev.onSwitch_power (f : Switch → Switch) : (d.onSwitch f).power = d.power := rfl
@[simp] theorem Dev.onSwitch_counters (f : Switch → Switch) : (d.onSwitch f).counters = d.counters := rfl
@[simp] theorem Dev.onSwitch_startUp (f : Switch → Switch) : (d.onSwitch f).startUp = d.startUp := rfl
@[simp] theorem Dev.onSwitch_mgmt (f : Switch → Switch) : (d.onSwitch f).mgmt = d.mgmt := rfl
@[simp] theorem Dev.onSwitch_protection (f : Switch → Switch) : (d.onSwitch f).protection = d.protection := rfl
@[simp] theorem Dev.onSwitch_out (f : Switch → Switch) : (d.onSwitch f).out = d.out := rfl
@[simp] theorem Dev.onSwitch_draws (f : Switch → Switch) : (d.onSwitch f).draws = d.draws := rfl
@[simp] theorem Dev.onSwitch_reg (f : Switch → Switch) (x : Nat) : (d.onSwitch f).reg x = d.reg x := rfl
@[simp] theorem Dev.onSwitch_field (f : Switch → Switch) (x l k : Nat) : (d.onSwitch f).field x l k = d.field x l k := rfl

/-! ### onChanters -/

@[simp] theorem Dev.onChanters_now (f : Chanters → Chanters) : (d.onChanters f).now = d.now := rfl
@[simp] theorem Dev.onChanters_grid (f : Chanters → Chanters) : (d.onChanters f).grid = d.grid := rfl
@[simp] theorem Dev.onChanters_crossing (f : Chanters → Chanters) : (d.onChanters f).crossing = d.crossing := rfl
@[simp] theorem Dev.onChanters_regs (f : Chanters → Chanters) : (d.onChanters f).regs = d.regs := rfl
@[simp] theorem Dev.onChanters_front (f : Chanters → Chanters) : (d.onChanters f).front = d.front := rfl
@[simp] theorem Dev.onChanters_control (f : Chanters → Chanters) : (d.onChanters f).control = d.control := rfl
@[simp] theorem Dev.onChanters_events (f : Chanters → Chanters) : (d.onChanters f).events = d.events := rfl
@[simp] theorem Dev.onChanters_endpoint (f : Chanters → Chanters) : (d.onChanters f).endpoint = d.endpoint := rfl
@[simp] theorem Dev.onChanters_transport (f : Chanters → Chanters) : (d.onChanters f).transport = d.transport := rfl
@[simp] theorem Dev.onChanters_memory (f : Chanters → Chanters) : (d.onChanters f).memory = d.memory := rfl
@[simp] theorem Dev.onChanters_chanters (f : Chanters → Chanters) : (d.onChanters f).chanters = f d.chanters := rfl
@[simp] theorem Dev.onChanters_compression (f : Chanters → Chanters) : (d.onChanters f).compression = d.compression := rfl
@[simp] theorem Dev.onChanters_cipher (f : Chanters → Chanters) : (d.onChanters f).cipher = d.cipher := rfl
@[simp] theorem Dev.onChanters_stripes (f : Chanters → Chanters) : (d.onChanters f).stripes = d.stripes := rfl
@[simp] theorem Dev.onChanters_switch (f : Chanters → Chanters) : (d.onChanters f).switch = d.switch := rfl
@[simp] theorem Dev.onChanters_bays (f : Chanters → Chanters) : (d.onChanters f).bays = d.bays := rfl
@[simp] theorem Dev.onChanters_trust (f : Chanters → Chanters) : (d.onChanters f).trust = d.trust := rfl
@[simp] theorem Dev.onChanters_peer (f : Chanters → Chanters) : (d.onChanters f).peer = d.peer := rfl
@[simp] theorem Dev.onChanters_power (f : Chanters → Chanters) : (d.onChanters f).power = d.power := rfl
@[simp] theorem Dev.onChanters_counters (f : Chanters → Chanters) : (d.onChanters f).counters = d.counters := rfl
@[simp] theorem Dev.onChanters_startUp (f : Chanters → Chanters) : (d.onChanters f).startUp = d.startUp := rfl
@[simp] theorem Dev.onChanters_mgmt (f : Chanters → Chanters) : (d.onChanters f).mgmt = d.mgmt := rfl
@[simp] theorem Dev.onChanters_protection (f : Chanters → Chanters) : (d.onChanters f).protection = d.protection := rfl
@[simp] theorem Dev.onChanters_out (f : Chanters → Chanters) : (d.onChanters f).out = d.out := rfl
@[simp] theorem Dev.onChanters_draws (f : Chanters → Chanters) : (d.onChanters f).draws = d.draws := rfl
@[simp] theorem Dev.onChanters_reg (f : Chanters → Chanters) (x : Nat) : (d.onChanters f).reg x = d.reg x := rfl
@[simp] theorem Dev.onChanters_field (f : Chanters → Chanters) (x l k : Nat) : (d.onChanters f).field x l k = d.field x l k := rfl

/-! ### onCipher -/

@[simp] theorem Dev.onCipher_now (f : Cipher → Cipher) : (d.onCipher f).now = d.now := rfl
@[simp] theorem Dev.onCipher_grid (f : Cipher → Cipher) : (d.onCipher f).grid = d.grid := rfl
@[simp] theorem Dev.onCipher_crossing (f : Cipher → Cipher) : (d.onCipher f).crossing = d.crossing := rfl
@[simp] theorem Dev.onCipher_regs (f : Cipher → Cipher) : (d.onCipher f).regs = d.regs := rfl
@[simp] theorem Dev.onCipher_front (f : Cipher → Cipher) : (d.onCipher f).front = d.front := rfl
@[simp] theorem Dev.onCipher_control (f : Cipher → Cipher) : (d.onCipher f).control = d.control := rfl
@[simp] theorem Dev.onCipher_events (f : Cipher → Cipher) : (d.onCipher f).events = d.events := rfl
@[simp] theorem Dev.onCipher_endpoint (f : Cipher → Cipher) : (d.onCipher f).endpoint = d.endpoint := rfl
@[simp] theorem Dev.onCipher_transport (f : Cipher → Cipher) : (d.onCipher f).transport = d.transport := rfl
@[simp] theorem Dev.onCipher_memory (f : Cipher → Cipher) : (d.onCipher f).memory = d.memory := rfl
@[simp] theorem Dev.onCipher_chanters (f : Cipher → Cipher) : (d.onCipher f).chanters = d.chanters := rfl
@[simp] theorem Dev.onCipher_compression (f : Cipher → Cipher) : (d.onCipher f).compression = d.compression := rfl
@[simp] theorem Dev.onCipher_cipher (f : Cipher → Cipher) : (d.onCipher f).cipher = f d.cipher := rfl
@[simp] theorem Dev.onCipher_stripes (f : Cipher → Cipher) : (d.onCipher f).stripes = d.stripes := rfl
@[simp] theorem Dev.onCipher_switch (f : Cipher → Cipher) : (d.onCipher f).switch = d.switch := rfl
@[simp] theorem Dev.onCipher_bays (f : Cipher → Cipher) : (d.onCipher f).bays = d.bays := rfl
@[simp] theorem Dev.onCipher_trust (f : Cipher → Cipher) : (d.onCipher f).trust = d.trust := rfl
@[simp] theorem Dev.onCipher_peer (f : Cipher → Cipher) : (d.onCipher f).peer = d.peer := rfl
@[simp] theorem Dev.onCipher_power (f : Cipher → Cipher) : (d.onCipher f).power = d.power := rfl
@[simp] theorem Dev.onCipher_counters (f : Cipher → Cipher) : (d.onCipher f).counters = d.counters := rfl
@[simp] theorem Dev.onCipher_startUp (f : Cipher → Cipher) : (d.onCipher f).startUp = d.startUp := rfl
@[simp] theorem Dev.onCipher_mgmt (f : Cipher → Cipher) : (d.onCipher f).mgmt = d.mgmt := rfl
@[simp] theorem Dev.onCipher_protection (f : Cipher → Cipher) : (d.onCipher f).protection = d.protection := rfl
@[simp] theorem Dev.onCipher_out (f : Cipher → Cipher) : (d.onCipher f).out = d.out := rfl
@[simp] theorem Dev.onCipher_draws (f : Cipher → Cipher) : (d.onCipher f).draws = d.draws := rfl
@[simp] theorem Dev.onCipher_reg (f : Cipher → Cipher) (x : Nat) : (d.onCipher f).reg x = d.reg x := rfl
@[simp] theorem Dev.onCipher_field (f : Cipher → Cipher) (x l k : Nat) : (d.onCipher f).field x l k = d.field x l k := rfl

/-! ### onCounters -/

@[simp] theorem Dev.onCounters_now (f : Counters → Counters) : (d.onCounters f).now = d.now := rfl
@[simp] theorem Dev.onCounters_grid (f : Counters → Counters) : (d.onCounters f).grid = d.grid := rfl
@[simp] theorem Dev.onCounters_crossing (f : Counters → Counters) : (d.onCounters f).crossing = d.crossing := rfl
@[simp] theorem Dev.onCounters_regs (f : Counters → Counters) : (d.onCounters f).regs = d.regs := rfl
@[simp] theorem Dev.onCounters_front (f : Counters → Counters) : (d.onCounters f).front = d.front := rfl
@[simp] theorem Dev.onCounters_control (f : Counters → Counters) : (d.onCounters f).control = d.control := rfl
@[simp] theorem Dev.onCounters_events (f : Counters → Counters) : (d.onCounters f).events = d.events := rfl
@[simp] theorem Dev.onCounters_endpoint (f : Counters → Counters) : (d.onCounters f).endpoint = d.endpoint := rfl
@[simp] theorem Dev.onCounters_transport (f : Counters → Counters) : (d.onCounters f).transport = d.transport := rfl
@[simp] theorem Dev.onCounters_memory (f : Counters → Counters) : (d.onCounters f).memory = d.memory := rfl
@[simp] theorem Dev.onCounters_chanters (f : Counters → Counters) : (d.onCounters f).chanters = d.chanters := rfl
@[simp] theorem Dev.onCounters_compression (f : Counters → Counters) : (d.onCounters f).compression = d.compression := rfl
@[simp] theorem Dev.onCounters_cipher (f : Counters → Counters) : (d.onCounters f).cipher = d.cipher := rfl
@[simp] theorem Dev.onCounters_stripes (f : Counters → Counters) : (d.onCounters f).stripes = d.stripes := rfl
@[simp] theorem Dev.onCounters_switch (f : Counters → Counters) : (d.onCounters f).switch = d.switch := rfl
@[simp] theorem Dev.onCounters_bays (f : Counters → Counters) : (d.onCounters f).bays = d.bays := rfl
@[simp] theorem Dev.onCounters_trust (f : Counters → Counters) : (d.onCounters f).trust = d.trust := rfl
@[simp] theorem Dev.onCounters_peer (f : Counters → Counters) : (d.onCounters f).peer = d.peer := rfl
@[simp] theorem Dev.onCounters_power (f : Counters → Counters) : (d.onCounters f).power = d.power := rfl
@[simp] theorem Dev.onCounters_counters (f : Counters → Counters) : (d.onCounters f).counters = f d.counters := rfl
@[simp] theorem Dev.onCounters_startUp (f : Counters → Counters) : (d.onCounters f).startUp = d.startUp := rfl
@[simp] theorem Dev.onCounters_mgmt (f : Counters → Counters) : (d.onCounters f).mgmt = d.mgmt := rfl
@[simp] theorem Dev.onCounters_protection (f : Counters → Counters) : (d.onCounters f).protection = d.protection := rfl
@[simp] theorem Dev.onCounters_out (f : Counters → Counters) : (d.onCounters f).out = d.out := rfl
@[simp] theorem Dev.onCounters_draws (f : Counters → Counters) : (d.onCounters f).draws = d.draws := rfl
@[simp] theorem Dev.onCounters_reg (f : Counters → Counters) (x : Nat) : (d.onCounters f).reg x = d.reg x := rfl
@[simp] theorem Dev.onCounters_field (f : Counters → Counters) (x l k : Nat) : (d.onCounters f).field x l k = d.field x l k := rfl

/-! ### onStart -/

@[simp] theorem Dev.onStart_now (f : StartUp → StartUp) : (d.onStart f).now = d.now := rfl
@[simp] theorem Dev.onStart_grid (f : StartUp → StartUp) : (d.onStart f).grid = d.grid := rfl
@[simp] theorem Dev.onStart_crossing (f : StartUp → StartUp) : (d.onStart f).crossing = d.crossing := rfl
@[simp] theorem Dev.onStart_regs (f : StartUp → StartUp) : (d.onStart f).regs = d.regs := rfl
@[simp] theorem Dev.onStart_front (f : StartUp → StartUp) : (d.onStart f).front = d.front := rfl
@[simp] theorem Dev.onStart_control (f : StartUp → StartUp) : (d.onStart f).control = d.control := rfl
@[simp] theorem Dev.onStart_events (f : StartUp → StartUp) : (d.onStart f).events = d.events := rfl
@[simp] theorem Dev.onStart_endpoint (f : StartUp → StartUp) : (d.onStart f).endpoint = d.endpoint := rfl
@[simp] theorem Dev.onStart_transport (f : StartUp → StartUp) : (d.onStart f).transport = d.transport := rfl
@[simp] theorem Dev.onStart_memory (f : StartUp → StartUp) : (d.onStart f).memory = d.memory := rfl
@[simp] theorem Dev.onStart_chanters (f : StartUp → StartUp) : (d.onStart f).chanters = d.chanters := rfl
@[simp] theorem Dev.onStart_compression (f : StartUp → StartUp) : (d.onStart f).compression = d.compression := rfl
@[simp] theorem Dev.onStart_cipher (f : StartUp → StartUp) : (d.onStart f).cipher = d.cipher := rfl
@[simp] theorem Dev.onStart_stripes (f : StartUp → StartUp) : (d.onStart f).stripes = d.stripes := rfl
@[simp] theorem Dev.onStart_switch (f : StartUp → StartUp) : (d.onStart f).switch = d.switch := rfl
@[simp] theorem Dev.onStart_bays (f : StartUp → StartUp) : (d.onStart f).bays = d.bays := rfl
@[simp] theorem Dev.onStart_trust (f : StartUp → StartUp) : (d.onStart f).trust = d.trust := rfl
@[simp] theorem Dev.onStart_peer (f : StartUp → StartUp) : (d.onStart f).peer = d.peer := rfl
@[simp] theorem Dev.onStart_power (f : StartUp → StartUp) : (d.onStart f).power = d.power := rfl
@[simp] theorem Dev.onStart_counters (f : StartUp → StartUp) : (d.onStart f).counters = d.counters := rfl
@[simp] theorem Dev.onStart_startUp (f : StartUp → StartUp) : (d.onStart f).startUp = f d.startUp := rfl
@[simp] theorem Dev.onStart_mgmt (f : StartUp → StartUp) : (d.onStart f).mgmt = d.mgmt := rfl
@[simp] theorem Dev.onStart_protection (f : StartUp → StartUp) : (d.onStart f).protection = d.protection := rfl
@[simp] theorem Dev.onStart_out (f : StartUp → StartUp) : (d.onStart f).out = d.out := rfl
@[simp] theorem Dev.onStart_draws (f : StartUp → StartUp) : (d.onStart f).draws = d.draws := rfl
@[simp] theorem Dev.onStart_reg (f : StartUp → StartUp) (x : Nat) : (d.onStart f).reg x = d.reg x := rfl
@[simp] theorem Dev.onStart_field (f : StartUp → StartUp) (x l k : Nat) : (d.onStart f).field x l k = d.field x l k := rfl

/-! ### onSet -/

@[simp] theorem Dev.onSet_now (n : Nat) (f : StripeSet → StripeSet) : (d.onSet n f).now = d.now := rfl
@[simp] theorem Dev.onSet_grid (n : Nat) (f : StripeSet → StripeSet) : (d.onSet n f).grid = d.grid := rfl
@[simp] theorem Dev.onSet_crossing (n : Nat) (f : StripeSet → StripeSet) : (d.onSet n f).crossing = d.crossing := rfl
@[simp] theorem Dev.onSet_regs (n : Nat) (f : StripeSet → StripeSet) : (d.onSet n f).regs = d.regs := rfl
@[simp] theorem Dev.onSet_front (n : Nat) (f : StripeSet → StripeSet) : (d.onSet n f).front = d.front := rfl
@[simp] theorem Dev.onSet_control (n : Nat) (f : StripeSet → StripeSet) : (d.onSet n f).control = d.control := rfl
@[simp] theorem Dev.onSet_events (n : Nat) (f : StripeSet → StripeSet) : (d.onSet n f).events = d.events := rfl
@[simp] theorem Dev.onSet_endpoint (n : Nat) (f : StripeSet → StripeSet) : (d.onSet n f).endpoint = d.endpoint := rfl
@[simp] theorem Dev.onSet_transport (n : Nat) (f : StripeSet → StripeSet) : (d.onSet n f).transport = d.transport := rfl
@[simp] theorem Dev.onSet_memory (n : Nat) (f : StripeSet → StripeSet) : (d.onSet n f).memory = d.memory := rfl
@[simp] theorem Dev.onSet_chanters (n : Nat) (f : StripeSet → StripeSet) : (d.onSet n f).chanters = d.chanters := rfl
@[simp] theorem Dev.onSet_compression (n : Nat) (f : StripeSet → StripeSet) : (d.onSet n f).compression = d.compression := rfl
@[simp] theorem Dev.onSet_cipher (n : Nat) (f : StripeSet → StripeSet) : (d.onSet n f).cipher = d.cipher := rfl
@[simp] theorem Dev.onSet_switch (n : Nat) (f : StripeSet → StripeSet) : (d.onSet n f).switch = d.switch := rfl
@[simp] theorem Dev.onSet_bays (n : Nat) (f : StripeSet → StripeSet) : (d.onSet n f).bays = d.bays := rfl
@[simp] theorem Dev.onSet_trust (n : Nat) (f : StripeSet → StripeSet) : (d.onSet n f).trust = d.trust := rfl
@[simp] theorem Dev.onSet_peer (n : Nat) (f : StripeSet → StripeSet) : (d.onSet n f).peer = d.peer := rfl
@[simp] theorem Dev.onSet_power (n : Nat) (f : StripeSet → StripeSet) : (d.onSet n f).power = d.power := rfl
@[simp] theorem Dev.onSet_counters (n : Nat) (f : StripeSet → StripeSet) : (d.onSet n f).counters = d.counters := rfl
@[simp] theorem Dev.onSet_startUp (n : Nat) (f : StripeSet → StripeSet) : (d.onSet n f).startUp = d.startUp := rfl
@[simp] theorem Dev.onSet_mgmt (n : Nat) (f : StripeSet → StripeSet) : (d.onSet n f).mgmt = d.mgmt := rfl
@[simp] theorem Dev.onSet_protection (n : Nat) (f : StripeSet → StripeSet) : (d.onSet n f).protection = d.protection := rfl
@[simp] theorem Dev.onSet_out (n : Nat) (f : StripeSet → StripeSet) : (d.onSet n f).out = d.out := rfl
@[simp] theorem Dev.onSet_draws (n : Nat) (f : StripeSet → StripeSet) : (d.onSet n f).draws = d.draws := rfl
@[simp] theorem Dev.onSet_reg (n : Nat) (f : StripeSet → StripeSet) (x : Nat) : (d.onSet n f).reg x = d.reg x := rfl
@[simp] theorem Dev.onSet_field (n : Nat) (f : StripeSet → StripeSet) (x l k : Nat) : (d.onSet n f).field x l k = d.field x l k := rfl

/-! ### onBay -/

@[simp] theorem Dev.onBay_now (n : Nat) (f : Bay → Bay) : (d.onBay n f).now = d.now := rfl
@[simp] theorem Dev.onBay_grid (n : Nat) (f : Bay → Bay) : (d.onBay n f).grid = d.grid := rfl
@[simp] theorem Dev.onBay_crossing (n : Nat) (f : Bay → Bay) : (d.onBay n f).crossing = d.crossing := rfl
@[simp] theorem Dev.onBay_regs (n : Nat) (f : Bay → Bay) : (d.onBay n f).regs = d.regs := rfl
@[simp] theorem Dev.onBay_front (n : Nat) (f : Bay → Bay) : (d.onBay n f).front = d.front := rfl
@[simp] theorem Dev.onBay_control (n : Nat) (f : Bay → Bay) : (d.onBay n f).control = d.control := rfl
@[simp] theorem Dev.onBay_events (n : Nat) (f : Bay → Bay) : (d.onBay n f).events = d.events := rfl
@[simp] theorem Dev.onBay_endpoint (n : Nat) (f : Bay → Bay) : (d.onBay n f).endpoint = d.endpoint := rfl
@[simp] theorem Dev.onBay_transport (n : Nat) (f : Bay → Bay) : (d.onBay n f).transport = d.transport := rfl
@[simp] theorem Dev.onBay_memory (n : Nat) (f : Bay → Bay) : (d.onBay n f).memory = d.memory := rfl
@[simp] theorem Dev.onBay_chanters (n : Nat) (f : Bay → Bay) : (d.onBay n f).chanters = d.chanters := rfl
@[simp] theorem Dev.onBay_compression (n : Nat) (f : Bay → Bay) : (d.onBay n f).compression = d.compression := rfl
@[simp] theorem Dev.onBay_cipher (n : Nat) (f : Bay → Bay) : (d.onBay n f).cipher = d.cipher := rfl
@[simp] theorem Dev.onBay_stripes (n : Nat) (f : Bay → Bay) : (d.onBay n f).stripes = d.stripes := rfl
@[simp] theorem Dev.onBay_switch (n : Nat) (f : Bay → Bay) : (d.onBay n f).switch = d.switch := rfl
@[simp] theorem Dev.onBay_trust (n : Nat) (f : Bay → Bay) : (d.onBay n f).trust = d.trust := rfl
@[simp] theorem Dev.onBay_peer (n : Nat) (f : Bay → Bay) : (d.onBay n f).peer = d.peer := rfl
@[simp] theorem Dev.onBay_power (n : Nat) (f : Bay → Bay) : (d.onBay n f).power = d.power := rfl
@[simp] theorem Dev.onBay_counters (n : Nat) (f : Bay → Bay) : (d.onBay n f).counters = d.counters := rfl
@[simp] theorem Dev.onBay_startUp (n : Nat) (f : Bay → Bay) : (d.onBay n f).startUp = d.startUp := rfl
@[simp] theorem Dev.onBay_mgmt (n : Nat) (f : Bay → Bay) : (d.onBay n f).mgmt = d.mgmt := rfl
@[simp] theorem Dev.onBay_protection (n : Nat) (f : Bay → Bay) : (d.onBay n f).protection = d.protection := rfl
@[simp] theorem Dev.onBay_out (n : Nat) (f : Bay → Bay) : (d.onBay n f).out = d.out := rfl
@[simp] theorem Dev.onBay_draws (n : Nat) (f : Bay → Bay) : (d.onBay n f).draws = d.draws := rfl
@[simp] theorem Dev.onBay_reg (n : Nat) (f : Bay → Bay) (x : Nat) : (d.onBay n f).reg x = d.reg x := rfl
@[simp] theorem Dev.onBay_field (n : Nat) (f : Bay → Bay) (x l k : Nat) : (d.onBay n f).field x l k = d.field x l k := rfl

/-! ### onChannel -/

@[simp] theorem Dev.onChannel_now (n : Nat) (f : BayChannel → BayChannel) : (d.onChannel n f).now = d.now := rfl
@[simp] theorem Dev.onChannel_grid (n : Nat) (f : BayChannel → BayChannel) : (d.onChannel n f).grid = d.grid := rfl
@[simp] theorem Dev.onChannel_crossing (n : Nat) (f : BayChannel → BayChannel) : (d.onChannel n f).crossing = d.crossing := rfl
@[simp] theorem Dev.onChannel_regs (n : Nat) (f : BayChannel → BayChannel) : (d.onChannel n f).regs = d.regs := rfl
@[simp] theorem Dev.onChannel_front (n : Nat) (f : BayChannel → BayChannel) : (d.onChannel n f).front = d.front := rfl
@[simp] theorem Dev.onChannel_control (n : Nat) (f : BayChannel → BayChannel) : (d.onChannel n f).control = d.control := rfl
@[simp] theorem Dev.onChannel_events (n : Nat) (f : BayChannel → BayChannel) : (d.onChannel n f).events = d.events := rfl
@[simp] theorem Dev.onChannel_endpoint (n : Nat) (f : BayChannel → BayChannel) : (d.onChannel n f).endpoint = d.endpoint := rfl
@[simp] theorem Dev.onChannel_transport (n : Nat) (f : BayChannel → BayChannel) : (d.onChannel n f).transport = d.transport := rfl
@[simp] theorem Dev.onChannel_memory (n : Nat) (f : BayChannel → BayChannel) : (d.onChannel n f).memory = d.memory := rfl
@[simp] theorem Dev.onChannel_chanters (n : Nat) (f : BayChannel → BayChannel) : (d.onChannel n f).chanters = d.chanters := rfl
@[simp] theorem Dev.onChannel_compression (n : Nat) (f : BayChannel → BayChannel) : (d.onChannel n f).compression = d.compression := rfl
@[simp] theorem Dev.onChannel_cipher (n : Nat) (f : BayChannel → BayChannel) : (d.onChannel n f).cipher = d.cipher := rfl
@[simp] theorem Dev.onChannel_stripes (n : Nat) (f : BayChannel → BayChannel) : (d.onChannel n f).stripes = d.stripes := rfl
@[simp] theorem Dev.onChannel_switch (n : Nat) (f : BayChannel → BayChannel) : (d.onChannel n f).switch = d.switch := rfl
@[simp] theorem Dev.onChannel_bays (n : Nat) (f : BayChannel → BayChannel) : (d.onChannel n f).bays = d.bays := rfl
@[simp] theorem Dev.onChannel_trust (n : Nat) (f : BayChannel → BayChannel) : (d.onChannel n f).trust = d.trust := rfl
@[simp] theorem Dev.onChannel_peer (n : Nat) (f : BayChannel → BayChannel) : (d.onChannel n f).peer = d.peer := rfl
@[simp] theorem Dev.onChannel_counters (n : Nat) (f : BayChannel → BayChannel) : (d.onChannel n f).counters = d.counters := rfl
@[simp] theorem Dev.onChannel_startUp (n : Nat) (f : BayChannel → BayChannel) : (d.onChannel n f).startUp = d.startUp := rfl
@[simp] theorem Dev.onChannel_mgmt (n : Nat) (f : BayChannel → BayChannel) : (d.onChannel n f).mgmt = d.mgmt := rfl
@[simp] theorem Dev.onChannel_protection (n : Nat) (f : BayChannel → BayChannel) : (d.onChannel n f).protection = d.protection := rfl
@[simp] theorem Dev.onChannel_out (n : Nat) (f : BayChannel → BayChannel) : (d.onChannel n f).out = d.out := rfl
@[simp] theorem Dev.onChannel_draws (n : Nat) (f : BayChannel → BayChannel) : (d.onChannel n f).draws = d.draws := rfl
@[simp] theorem Dev.onChannel_reg (n : Nat) (f : BayChannel → BayChannel) (x : Nat) : (d.onChannel n f).reg x = d.reg x := rfl
@[simp] theorem Dev.onChannel_field (n : Nat) (f : BayChannel → BayChannel) (x l k : Nat) : (d.onChannel n f).field x l k = d.field x l k := rfl

/-! ### onWindow -/

@[simp] theorem Dev.onWindow_now (n : Nat) (f : Window → Window) : (d.onWindow n f).now = d.now := rfl
@[simp] theorem Dev.onWindow_grid (n : Nat) (f : Window → Window) : (d.onWindow n f).grid = d.grid := rfl
@[simp] theorem Dev.onWindow_crossing (n : Nat) (f : Window → Window) : (d.onWindow n f).crossing = d.crossing := rfl
@[simp] theorem Dev.onWindow_regs (n : Nat) (f : Window → Window) : (d.onWindow n f).regs = d.regs := rfl
@[simp] theorem Dev.onWindow_front (n : Nat) (f : Window → Window) : (d.onWindow n f).front = d.front := rfl
@[simp] theorem Dev.onWindow_control (n : Nat) (f : Window → Window) : (d.onWindow n f).control = d.control := rfl
@[simp] theorem Dev.onWindow_events (n : Nat) (f : Window → Window) : (d.onWindow n f).events = d.events := rfl
@[simp] theorem Dev.onWindow_endpoint (n : Nat) (f : Window → Window) : (d.onWindow n f).endpoint = d.endpoint := rfl
@[simp] theorem Dev.onWindow_transport (n : Nat) (f : Window → Window) : (d.onWindow n f).transport = d.transport := rfl
@[simp] theorem Dev.onWindow_chanters (n : Nat) (f : Window → Window) : (d.onWindow n f).chanters = d.chanters := rfl
@[simp] theorem Dev.onWindow_compression (n : Nat) (f : Window → Window) : (d.onWindow n f).compression = d.compression := rfl
@[simp] theorem Dev.onWindow_cipher (n : Nat) (f : Window → Window) : (d.onWindow n f).cipher = d.cipher := rfl
@[simp] theorem Dev.onWindow_stripes (n : Nat) (f : Window → Window) : (d.onWindow n f).stripes = d.stripes := rfl
@[simp] theorem Dev.onWindow_switch (n : Nat) (f : Window → Window) : (d.onWindow n f).switch = d.switch := rfl
@[simp] theorem Dev.onWindow_bays (n : Nat) (f : Window → Window) : (d.onWindow n f).bays = d.bays := rfl
@[simp] theorem Dev.onWindow_trust (n : Nat) (f : Window → Window) : (d.onWindow n f).trust = d.trust := rfl
@[simp] theorem Dev.onWindow_peer (n : Nat) (f : Window → Window) : (d.onWindow n f).peer = d.peer := rfl
@[simp] theorem Dev.onWindow_power (n : Nat) (f : Window → Window) : (d.onWindow n f).power = d.power := rfl
@[simp] theorem Dev.onWindow_counters (n : Nat) (f : Window → Window) : (d.onWindow n f).counters = d.counters := rfl
@[simp] theorem Dev.onWindow_startUp (n : Nat) (f : Window → Window) : (d.onWindow n f).startUp = d.startUp := rfl
@[simp] theorem Dev.onWindow_mgmt (n : Nat) (f : Window → Window) : (d.onWindow n f).mgmt = d.mgmt := rfl
@[simp] theorem Dev.onWindow_protection (n : Nat) (f : Window → Window) : (d.onWindow n f).protection = d.protection := rfl
@[simp] theorem Dev.onWindow_out (n : Nat) (f : Window → Window) : (d.onWindow n f).out = d.out := rfl
@[simp] theorem Dev.onWindow_draws (n : Nat) (f : Window → Window) : (d.onWindow n f).draws = d.draws := rfl
@[simp] theorem Dev.onWindow_reg (n : Nat) (f : Window → Window) (x : Nat) : (d.onWindow n f).reg x = d.reg x := rfl
@[simp] theorem Dev.onWindow_field (n : Nat) (f : Window → Window) (x l k : Nat) : (d.onWindow n f).field x l k = d.field x l k := rfl

/-! ### onNs -/

@[simp] theorem Dev.onNs_now (n : Nat) (f : Namespace → Namespace) : (d.onNs n f).now = d.now := rfl
@[simp] theorem Dev.onNs_grid (n : Nat) (f : Namespace → Namespace) : (d.onNs n f).grid = d.grid := rfl
@[simp] theorem Dev.onNs_crossing (n : Nat) (f : Namespace → Namespace) : (d.onNs n f).crossing = d.crossing := rfl
@[simp] theorem Dev.onNs_regs (n : Nat) (f : Namespace → Namespace) : (d.onNs n f).regs = d.regs := rfl
@[simp] theorem Dev.onNs_front (n : Nat) (f : Namespace → Namespace) : (d.onNs n f).front = d.front := rfl
@[simp] theorem Dev.onNs_control (n : Nat) (f : Namespace → Namespace) : (d.onNs n f).control = d.control := rfl
@[simp] theorem Dev.onNs_events (n : Nat) (f : Namespace → Namespace) : (d.onNs n f).events = d.events := rfl
@[simp] theorem Dev.onNs_endpoint (n : Nat) (f : Namespace → Namespace) : (d.onNs n f).endpoint = d.endpoint := rfl
@[simp] theorem Dev.onNs_transport (n : Nat) (f : Namespace → Namespace) : (d.onNs n f).transport = d.transport := rfl
@[simp] theorem Dev.onNs_memory (n : Nat) (f : Namespace → Namespace) : (d.onNs n f).memory = d.memory := rfl
@[simp] theorem Dev.onNs_chanters (n : Nat) (f : Namespace → Namespace) : (d.onNs n f).chanters = d.chanters := rfl
@[simp] theorem Dev.onNs_compression (n : Nat) (f : Namespace → Namespace) : (d.onNs n f).compression = d.compression := rfl
@[simp] theorem Dev.onNs_cipher (n : Nat) (f : Namespace → Namespace) : (d.onNs n f).cipher = d.cipher := rfl
@[simp] theorem Dev.onNs_switch (n : Nat) (f : Namespace → Namespace) : (d.onNs n f).switch = d.switch := rfl
@[simp] theorem Dev.onNs_bays (n : Nat) (f : Namespace → Namespace) : (d.onNs n f).bays = d.bays := rfl
@[simp] theorem Dev.onNs_trust (n : Nat) (f : Namespace → Namespace) : (d.onNs n f).trust = d.trust := rfl
@[simp] theorem Dev.onNs_peer (n : Nat) (f : Namespace → Namespace) : (d.onNs n f).peer = d.peer := rfl
@[simp] theorem Dev.onNs_power (n : Nat) (f : Namespace → Namespace) : (d.onNs n f).power = d.power := rfl
@[simp] theorem Dev.onNs_counters (n : Nat) (f : Namespace → Namespace) : (d.onNs n f).counters = d.counters := rfl
@[simp] theorem Dev.onNs_startUp (n : Nat) (f : Namespace → Namespace) : (d.onNs n f).startUp = d.startUp := rfl
@[simp] theorem Dev.onNs_mgmt (n : Nat) (f : Namespace → Namespace) : (d.onNs n f).mgmt = d.mgmt := rfl
@[simp] theorem Dev.onNs_protection (n : Nat) (f : Namespace → Namespace) : (d.onNs n f).protection = d.protection := rfl
@[simp] theorem Dev.onNs_out (n : Nat) (f : Namespace → Namespace) : (d.onNs n f).out = d.out := rfl
@[simp] theorem Dev.onNs_draws (n : Nat) (f : Namespace → Namespace) : (d.onNs n f).draws = d.draws := rfl
@[simp] theorem Dev.onNs_reg (n : Nat) (f : Namespace → Namespace) (x : Nat) : (d.onNs n f).reg x = d.reg x := rfl
@[simp] theorem Dev.onNs_field (n : Nat) (f : Namespace → Namespace) (x l k : Nat) : (d.onNs n f).field x l k = d.field x l k := rfl

/-! ### onSa -/

@[simp] theorem Dev.onSa_now (n : Nat) (f : Sa → Sa) : (d.onSa n f).now = d.now := rfl
@[simp] theorem Dev.onSa_grid (n : Nat) (f : Sa → Sa) : (d.onSa n f).grid = d.grid := rfl
@[simp] theorem Dev.onSa_crossing (n : Nat) (f : Sa → Sa) : (d.onSa n f).crossing = d.crossing := rfl
@[simp] theorem Dev.onSa_regs (n : Nat) (f : Sa → Sa) : (d.onSa n f).regs = d.regs := rfl
@[simp] theorem Dev.onSa_front (n : Nat) (f : Sa → Sa) : (d.onSa n f).front = d.front := rfl
@[simp] theorem Dev.onSa_control (n : Nat) (f : Sa → Sa) : (d.onSa n f).control = d.control := rfl
@[simp] theorem Dev.onSa_events (n : Nat) (f : Sa → Sa) : (d.onSa n f).events = d.events := rfl
@[simp] theorem Dev.onSa_endpoint (n : Nat) (f : Sa → Sa) : (d.onSa n f).endpoint = d.endpoint := rfl
@[simp] theorem Dev.onSa_memory (n : Nat) (f : Sa → Sa) : (d.onSa n f).memory = d.memory := rfl
@[simp] theorem Dev.onSa_chanters (n : Nat) (f : Sa → Sa) : (d.onSa n f).chanters = d.chanters := rfl
@[simp] theorem Dev.onSa_compression (n : Nat) (f : Sa → Sa) : (d.onSa n f).compression = d.compression := rfl
@[simp] theorem Dev.onSa_cipher (n : Nat) (f : Sa → Sa) : (d.onSa n f).cipher = d.cipher := rfl
@[simp] theorem Dev.onSa_stripes (n : Nat) (f : Sa → Sa) : (d.onSa n f).stripes = d.stripes := rfl
@[simp] theorem Dev.onSa_switch (n : Nat) (f : Sa → Sa) : (d.onSa n f).switch = d.switch := rfl
@[simp] theorem Dev.onSa_bays (n : Nat) (f : Sa → Sa) : (d.onSa n f).bays = d.bays := rfl
@[simp] theorem Dev.onSa_trust (n : Nat) (f : Sa → Sa) : (d.onSa n f).trust = d.trust := rfl
@[simp] theorem Dev.onSa_peer (n : Nat) (f : Sa → Sa) : (d.onSa n f).peer = d.peer := rfl
@[simp] theorem Dev.onSa_power (n : Nat) (f : Sa → Sa) : (d.onSa n f).power = d.power := rfl
@[simp] theorem Dev.onSa_counters (n : Nat) (f : Sa → Sa) : (d.onSa n f).counters = d.counters := rfl
@[simp] theorem Dev.onSa_startUp (n : Nat) (f : Sa → Sa) : (d.onSa n f).startUp = d.startUp := rfl
@[simp] theorem Dev.onSa_mgmt (n : Nat) (f : Sa → Sa) : (d.onSa n f).mgmt = d.mgmt := rfl
@[simp] theorem Dev.onSa_protection (n : Nat) (f : Sa → Sa) : (d.onSa n f).protection = d.protection := rfl
@[simp] theorem Dev.onSa_out (n : Nat) (f : Sa → Sa) : (d.onSa n f).out = d.out := rfl
@[simp] theorem Dev.onSa_draws (n : Nat) (f : Sa → Sa) : (d.onSa n f).draws = d.draws := rfl
@[simp] theorem Dev.onSa_reg (n : Nat) (f : Sa → Sa) (x : Nat) : (d.onSa n f).reg x = d.reg x := rfl
@[simp] theorem Dev.onSa_field (n : Nat) (f : Sa → Sa) (x l k : Nat) : (d.onSa n f).field x l k = d.field x l k := rfl

/-! ### onPort -/

@[simp] theorem Dev.onPort_now (n : Nat) (f : Port → Port) : (d.onPort n f).now = d.now := rfl
@[simp] theorem Dev.onPort_grid (n : Nat) (f : Port → Port) : (d.onPort n f).grid = d.grid := rfl
@[simp] theorem Dev.onPort_crossing (n : Nat) (f : Port → Port) : (d.onPort n f).crossing = d.crossing := rfl
@[simp] theorem Dev.onPort_regs (n : Nat) (f : Port → Port) : (d.onPort n f).regs = d.regs := rfl
@[simp] theorem Dev.onPort_front (n : Nat) (f : Port → Port) : (d.onPort n f).front = d.front := rfl
@[simp] theorem Dev.onPort_control (n : Nat) (f : Port → Port) : (d.onPort n f).control = d.control := rfl
@[simp] theorem Dev.onPort_events (n : Nat) (f : Port → Port) : (d.onPort n f).events = d.events := rfl
@[simp] theorem Dev.onPort_endpoint (n : Nat) (f : Port → Port) : (d.onPort n f).endpoint = d.endpoint := rfl
@[simp] theorem Dev.onPort_memory (n : Nat) (f : Port → Port) : (d.onPort n f).memory = d.memory := rfl
@[simp] theorem Dev.onPort_chanters (n : Nat) (f : Port → Port) : (d.onPort n f).chanters = d.chanters := rfl
@[simp] theorem Dev.onPort_compression (n : Nat) (f : Port → Port) : (d.onPort n f).compression = d.compression := rfl
@[simp] theorem Dev.onPort_cipher (n : Nat) (f : Port → Port) : (d.onPort n f).cipher = d.cipher := rfl
@[simp] theorem Dev.onPort_stripes (n : Nat) (f : Port → Port) : (d.onPort n f).stripes = d.stripes := rfl
@[simp] theorem Dev.onPort_switch (n : Nat) (f : Port → Port) : (d.onPort n f).switch = d.switch := rfl
@[simp] theorem Dev.onPort_bays (n : Nat) (f : Port → Port) : (d.onPort n f).bays = d.bays := rfl
@[simp] theorem Dev.onPort_trust (n : Nat) (f : Port → Port) : (d.onPort n f).trust = d.trust := rfl
@[simp] theorem Dev.onPort_peer (n : Nat) (f : Port → Port) : (d.onPort n f).peer = d.peer := rfl
@[simp] theorem Dev.onPort_power (n : Nat) (f : Port → Port) : (d.onPort n f).power = d.power := rfl
@[simp] theorem Dev.onPort_counters (n : Nat) (f : Port → Port) : (d.onPort n f).counters = d.counters := rfl
@[simp] theorem Dev.onPort_startUp (n : Nat) (f : Port → Port) : (d.onPort n f).startUp = d.startUp := rfl
@[simp] theorem Dev.onPort_mgmt (n : Nat) (f : Port → Port) : (d.onPort n f).mgmt = d.mgmt := rfl
@[simp] theorem Dev.onPort_protection (n : Nat) (f : Port → Port) : (d.onPort n f).protection = d.protection := rfl
@[simp] theorem Dev.onPort_out (n : Nat) (f : Port → Port) : (d.onPort n f).out = d.out := rfl
@[simp] theorem Dev.onPort_draws (n : Nat) (f : Port → Port) : (d.onPort n f).draws = d.draws := rfl
@[simp] theorem Dev.onPort_reg (n : Nat) (f : Port → Port) (x : Nat) : (d.onPort n f).reg x = d.reg x := rfl
@[simp] theorem Dev.onPort_field (n : Nat) (f : Port → Port) (x l k : Nat) : (d.onPort n f).field x l k = d.field x l k := rfl

/-! ### The register file -/

/-- A register placed in force reads back; every other register reads as before. -/
theorem Dev.reg_setReg (a v x : Nat) : (d.setReg a v).reg x = if x = a then v else d.reg x := by
  unfold Dev.setReg Dev.reg
  by_cases h : v = resetWordAt a
  · simp only [h, if_true, find_drop]; split <;> simp_all
  · simp only [h, if_false, find_put]; split <;> simp_all

@[simp] theorem Dev.reg_setReg_self (a v : Nat) : (d.setReg a v).reg a = v := by simp [Dev.reg_setReg]

theorem Dev.reg_setReg_ne (a v x : Nat) (h : x ≠ a) : (d.setReg a v).reg x = d.reg x := by simp [Dev.reg_setReg, h]

/-- A count register goes up and stops at 2^32 - 1. -/
theorem Dev.reg_count (a n x : Nat) : (d.count a n).reg x = if x = a then satAdd max32 (d.reg a) n else d.reg x := Dev.reg_setReg d a _ x

/-- A field placed in force changes its register only. -/
theorem Dev.reg_setField (a lo w v x : Nat) : (d.setField a lo w v).reg x = if x = a then withBits (d.reg a) lo w v else d.reg x :=
  Dev.reg_setReg d a _ x

/-- Placing a register keeps the register file's keys rising and lists no register at its reset word. -/
theorem Dev.inForce_setReg (a v : Nat) (h : rising d.regs.inForce = true) (hn : ∀ r ∈ d.regs.inForce, r.2 ≠ resetWordAt r.1) :
    rising (d.setReg a v).regs.inForce = true ∧ ∀ r ∈ (d.setReg a v).regs.inForce, r.2 ≠ resetWordAt r.1 := by
  unfold Dev.setReg
  by_cases e : v = resetWordAt a
  · simp only [e, if_true]
    exact ⟨rising_drop a h, fun r hr => hn r (List.mem_filter.1 hr).1⟩
  · simp only [e, if_false]
    refine ⟨rising_put a v h, fun r hr => ?_⟩
    rcases mem_put hr with rfl | hr
    · exact e
    · exact hn r hr

/-! ### Bit fields -/

/-- A field replaced holds the value's low bits. -/
theorem bitsOf_withBits (v lo w x : Nat) : bitsOf (withBits v lo w x) lo w = x % 2 ^ w := by
  unfold bitsOf withBits
  have e : v / 2 ^ (lo + w) * 2 ^ (lo + w) + x % 2 ^ w * 2 ^ lo + v % 2 ^ lo
      = 2 ^ lo * (2 ^ w * (v / 2 ^ (lo + w)) + x % 2 ^ w) + v % 2 ^ lo := by rw [Nat.pow_add]; ring
  rw [e, Nat.mul_add_div (Nat.two_pow_pos lo), Nat.div_eq_of_lt (Nat.mod_lt _ (Nat.two_pow_pos lo)), Nat.add_zero,
    Nat.mul_add_mod, Nat.mod_mod]

/-- Replacing a field keeps what lies below it. -/
theorem withBits_mod (v lo w x : Nat) : withBits v lo w x % 2 ^ lo = v % 2 ^ lo := by
  unfold withBits
  have e : v / 2 ^ (lo + w) * 2 ^ (lo + w) + x % 2 ^ w * 2 ^ lo + v % 2 ^ lo
      = 2 ^ lo * (2 ^ w * (v / 2 ^ (lo + w)) + x % 2 ^ w) + v % 2 ^ lo := by rw [Nat.pow_add]; ring
  rw [e, Nat.mul_add_mod, Nat.mod_mod]

/-- Replacing a field keeps what lies above it. -/
theorem withBits_div (v lo w x : Nat) : withBits v lo w x / 2 ^ (lo + w) = v / 2 ^ (lo + w) := by
  unfold withBits
  have hl : x % 2 ^ w * 2 ^ lo + v % 2 ^ lo < 2 ^ (lo + w) := by
    have h1 : x % 2 ^ w + 1 ≤ 2 ^ w := Nat.mod_lt _ (Nat.two_pow_pos w)
    have h2 := Nat.mod_lt v (Nat.two_pow_pos lo)
    have h3 := Nat.mul_le_mul_right (2 ^ lo) h1
    rw [Nat.add_mul, Nat.one_mul] at h3
    rw [Nat.pow_add, Nat.mul_comm (2 ^ lo)]; omega
  rw [Nat.add_assoc, Nat.mul_comm, Nat.mul_add_div (Nat.two_pow_pos _), Nat.div_eq_of_lt hl, Nat.add_zero]

end Sys2Proof.Machine
end

