-- ==== Sys2Proof/Safety.lean ====
section
/-! DEFINITION. The words in which claims about the module are stated: a command that runs, what it leaves alone, an event that has
been posted, and the invariants of the module's stores. -/

namespace Sys2Proof.Machine

open Sys2Proof

/-- A command answers a next state: the queue as it was, and a module of which a property holds. -/
def Runs (i : Instr) (s : State) (p : Dev → Prop) : Prop := ∃ d, exec i s = .next { s with dev := d } ∧ p d

/-- A command answers the next state that has the queue as it was and a module given. -/
def Becomes (i : Instr) (s : State) (d : Dev) : Prop := exec i s = .next { s with dev := d }

/-- The command changes nothing. -/
def Idles (i : Instr) (s : State) : Prop := exec i s = .next s

/-- Every register but those named holds what it held. -/
def RegsKept (a b : Dev) (but : List Nat) : Prop := ∀ addr, addr ∉ but → b.reg addr = a.reg addr

/-- Only parts that posting an event touches differ: the histories, the lost-event count and the mirror's queue (R482, R484, R498). -/
def OnlyEvents (a b : Dev) : Prop :=
  b = { a with events := b.events, regs := b.regs, mgmt := b.mgmt } ∧ RegsKept a b [0x318]

/-- An event stands newest in the history of every client that hears its class (R482). -/
def NewestEvent (a b : Dev) (cls code unit : Nat) (data : List Item) : Prop :=
  ∀ c < 4, a.hears c cls = true →
    (b.client c).history.head? = some { cls := cls, code := code, unit := unit % 2 ^ 16, breath := a.breath, data := data }

/-- An event stands newest in the history of one client, its one recipient, if the client hears its class (R482). -/
def NewestEventTo (a b : Dev) (c cls code unit : Nat) (data : List Item) : Prop :=
  a.hears c cls = true →
    (b.client c).history.head? = some { cls := cls, code := code, unit := unit % 2 ^ 16, breath := a.breath, data := data }

/-- The stores stand in their one canonical form: the register file and the region table with rising keys, no register listed at its
reset word, and each region's bytes as a sparse memory. -/
def Canonical (d : Dev) : Prop :=
  rising d.regs.inForce = true ∧ (∀ r ∈ d.regs.inForce, r.2 ≠ resetWordAt r.1) ∧ rising d.memory.regions = true ∧
    ∀ r ∈ d.memory.regions, memoryWf r.2.mem = true

/-- The rows of the packets of each TYPE (R58). -/
def receiveRows (f : Frame) : List (Nat × Instr) :=
  [(0, .dataWriteRx f), (1, .readReqRx f), (2, .readRespRx f), (3, .capsuleRx f), (4, .responseRx f), (5, .ackRx f), (6, .nackRx f),
    (7, .eventRx f)]

/-- The rows whose operand is an entry of a submission queue, with their opcodes (R128). -/
def submitRows (c : Submit) : List (Nat × Instr) :=
  [(0x7D, .reseed c), (0x54, .regionRegister c), (0x55, .regionRevoke c), (0x58, .windowCreate c), (0x59, .windowArm c),
    (0x5A, .windowDisarm c), (0x5B, .windowDelete c), (0x48, .cqCreate c), (0x49, .sqCreate c), (0x4A, .sqModify c),
    (0x4B, .sqDelete c), (0x4C, .cqDelete c), (0x4D, .queueReset c), (0x01, .read c), (0x02, .write c),
    (0x03, .deallocate c), (0x08, .abort c), (0x40, .txnBegin c), (0x41, .txnCommit c), (0x42, .txnRollback c),
    (0x44, .getLog c), (0x45, .tune c), (0x50, .saCreate c), (0x51, .saDelete c), (0x52, .rctxCreate c),
    (0x53, .rctxDelete c), (0x60, .nsCreate c), (0x61, .nsDelete c), (0x64, .setCreate c), (0x65, .setDelete c),
    (0x66, .setReshape c), (0x67, .spareAssign c), (0x68, .programLoad c), (0x69, .programBind c),
    (0x6A, .programUnload c), (0x6C, .keyInstall c), (0x6D, .keyDestroy c), (0x70, .fwStage c), (0x71, .fwActivate c),
    (0x74, .schedSet c), (0x7C, .regRead c), (0x7D, .regWrite c)]

/-- A frame carries a packet that passes steps 1 to 5 of R60, its SA resident: its plain text, and the module after those steps. -/
def Authentic (s : State) (f : Frame) (p : Packet) (text : Bytes) (d : Dev) : Prop :=
  let a := s.dev.clock f.now
  a.takesFrames f.port = true ∧ passesOn f.port f.bytes = false ∧ a.classify f = .cuchail p ∧
  ∃ b c, (a.total (hpcPort f.port 0x28) 32 1).policePort f.port (f.bytes.length + 4) = (b, true) ∧
    b.transport.saCache.contains p.header.sa = true ∧
    (b.onTransport fun t => { t with saCache := touch t.saCache p.header.sa }).authenticate p = (c, some text) ∧
    c.policeSa p.port p.header.sa (p.frame.length + 4) = (d, true)

/-! ## Gullot threads -/

/-- A thread holds an activation that can issue its next instruction: its data has come, its next word is code, and its budget is not
spent (R176, R190). -/
def CanRun (s : State) (t : Nat) (a : Activation) : Prop :=
  find s.dev.chanters.threads t = some a ∧ a.awaiting = 0 ∧ a.pc < a.codeWords ∧ a.sinsn + 1 < a.limit * 65536

/-- The instruction retires and leaves an activation on its thread; every other thread, and all of the module but the countdown of
instruction tagging, is as it was. -/
def Retires (i : Instr) (s : State) (t : Nat) (b : Activation) : Prop :=
  Runs i s fun d => find d.chanters.threads t = some b ∧ (∀ u, u ≠ t → find d.chanters.threads u = find s.dev.chanters.threads u) ∧
    d = { s.dev with
      chanters := { s.dev.chanters with threads := d.chanters.threads }
      counters := { s.dev.counters with tags := d.counters.tags } }

/-- The instruction retires, writes one general register, g0 keeping its 0, and goes on at a word index. -/
def Writes (i : Instr) (s : State) (t : Nat) (a : Activation) (rd v next : Nat) : Prop :=
  ∃ r : Table Word, (∀ n, ({ a with regs := r } : Activation).reg n = if n = rd ∧ rd ≠ 0 then v else a.reg n) ∧
    Retires i s t { a with pc := next, sinsn := a.sinsn + 1, regs := r }

/-- The instruction raises a fault of a code, and nothing else has happened but a step of the tagging countdown (R176). -/
def Faults (i : Instr) (s : State) (t code : Nat) : Prop :=
  ∃ e : Dev, e = { s.dev with counters := { s.dev.counters with tags := e.counters.tags } } ∧ Becomes i s (e.faultThread t code)

/-- The integer instructions on thread `t`, each with the value it writes from the values of ga and gb (R192, R196, R197). -/
def integerRows (t d a b imm : Nat) : List (Instr × (Word → Word → Word)) :=
  let raw := BitVec.ofNat 16 imm
  let low := raw.setWidth 64
  let ext := raw.signExtend 64
  [(.add t d a b, fun x y => x + y), (.sub t d a b, fun x y => x - y), (.and t d a b, fun x y => x &&& y),
   (.or t d a b, fun x y => x ||| y), (.xor t d a b, fun x y => x ^^^ y), (.not t d a, fun x _ => ~~~x),
   (.sll t d a b, fun x y => x <<< (y.toNat % 64)), (.srl t d a b, fun x y => x >>> (y.toNat % 64)),
   (.sra t d a b, fun x y => x.sshiftRight (y.toNat % 64)), (.slt t d a b, fun x y => if x.slt y then 1 else 0),
   (.sltu t d a b, fun x y => if x.ult y then 1 else 0), (.mul t d a b, fun x y => x * y),
   (.mulhu t d a b, fun x y => BitVec.ofNat 64 (x.toNat * y.toNat / 2 ^ 64)),
   (.divu t d a b, fun x y => if y = 0 then BitVec.allOnes 64 else x.udiv y), (.remu t d a b, fun x y => if y = 0 then x else x.umod y),
   (.addi t d a imm, fun x _ => x + ext), (.andi t d a imm, fun x _ => x &&& low), (.ori t d a imm, fun x _ => x ||| low),
   (.xori t d a imm, fun x _ => x ^^^ low), (.slti t d a imm, fun x _ => if x.slt ext then 1 else 0),
   (.sltiu t d a imm, fun x _ => if x.ult ext then 1 else 0), (.slli t d a imm, fun x _ => x <<< (imm % 64)),
   (.srli t d a imm, fun x _ => x >>> (imm % 64)), (.srai t d a imm, fun x _ => x.sshiftRight (imm % 64))]

/-- The branches on thread `t`, each with its condition on the values of ga and gb (R198). -/
def branchRows (t a b off : Nat) : List (Instr × (Word → Word → Bool)) :=
  [(.beq t a b off, fun x y => x == y), (.bne t a b off, fun x y => x != y), (.blt t a b off, fun x y => x.slt y),
   (.bge t a b off, fun x y => !x.slt y), (.bltu t a b off, fun x y => x.ult y), (.bgeu t a b off, fun x y => !x.ult y)]

/-- The loads on thread `t`, with their widths in bytes. -/
def loadRows (t d b imm : Nat) : List (Instr × Nat) :=
  [(.ldB t d b imm, 1), (.ldH t d b imm, 2), (.ldW t d b imm, 4), (.ldD t d b imm, 8)]

/-- The stores on thread `t`, with their widths in bytes. -/
def storeRows (t v b imm : Nat) : List (Instr × Nat) :=
  [(.stB t v b imm, 1), (.stH t v b imm, 2), (.stW t v b imm, 4), (.stD t v b imm, 8)]

/-- A load or store of `n` bytes with a right reaches bytes of an area: its capability address is well formed, its offset lies in its
window, the window has the right, and the bytes are aligned (R167, R171, R193). -/
def Reaches (a : Activation) (base imm n : Nat) (right : Cap → Bool) (p : Span) : Prop :=
  base < 2 ^ 51 ∧ ∃ (c : Cap) (off : Nat), find a.caps (base / 2 ^ 48) = some c ∧ signedOf base 48 + signedOf imm 16 = off ∧
    off + n ≤ c.length ∧ right c = true ∧ (c.base + off) % n = 0 ∧ p = { area := c.area, start := c.base + off, length := n }

/-- An engine instruction takes the lowest free ticket for an operation, its number goes to gt, and free lanes are offered the work that
waits (R172, R195, R341). -/
def Issues (i : Instr) (s : State) (t gt : Nat) (a : Activation) (k : Ticket) : Prop :=
  ∃ (e : Dev) (n : Nat), freeKey a.tickets 0 16 = some n ∧
    find e.chanters.threads t =
      some { ({ a with tickets := put a.tickets n k }.setReg gt n) with pc := a.pc + 1, sinsn := a.sinsn + 1 } ∧
    (∀ u, u ≠ t → find e.chanters.threads u = find s.dev.chanters.threads u) ∧
    e = { s.dev with
      chanters := { s.dev.chanters with threads := e.chanters.threads }
      counters := { s.dev.counters with tags := e.counters.tags }
      front := e.front, transport := e.transport, out := e.out, regs := e.regs, bays := e.bays
      switch := e.switch, events := e.events, mgmt := e.mgmt } ∧
    Becomes i s e.serveAll

end Sys2Proof.Machine
end

