-- ==== Sys2Proof/Certificates/Slice0/Obligations.lean ====
section
/-! DEFINITION. The statements for the provers, each from the rules of the spec it names. -/

open Sys2Proof Sys2Proof.Machine

/-- A direct write of an RWS register, HPC_RETX: a field that can take its value waits for the edge and reads back at once, a field that
cannot keeps its value and is reported, and nothing is in force before the edge; a malformed access is counted in PEP_BAD_ACCESS
(R7, R8, R10, R446, R505). -/
def Obligations.DirectWriteOfAnRwsRegister : Prop :=
  (∀ (s : State) (now v : Nat), 10 ≤ v % 65536 → v % 65536 ≤ 1000 → 1 ≤ v / 65536 % 16 → v / 65536 % 16 ≤ 8 →
    Runs (.registerWrite now 0x200008 4 v) s fun d =>
      (∀ addr, d.reg addr = s.dev.reg addr) ∧
      d.written 0x200008 = withBits (withBits (s.dev.written 0x200008) 0 16 (v % 65536)) 16 4 (v / 65536 % 16) ∧
      d.regs.landing = s.dev.regs.landing ++
        [{ addr := 0x200008, lo := 0, width := 16, value := v % 65536, arrival := now, client := 0 },
         { addr := 0x200008, lo := 16, width := 4, value := v / 65536 % 16, arrival := now, client := 0 }] ∧
      d = { s.dev with now := now, regs := d.regs }) ∧
  (∀ (s : State) (now v : Nat), (v % 65536 < 10 ∨ 1000 < v % 65536) → 1 ≤ v / 65536 % 16 → v / 65536 % 16 ≤ 8 →
    Runs (.registerWrite now 0x200008 4 v) s fun d =>
      RegsKept s.dev d [0x318] ∧
      d.written 0x200008 = withBits (s.dev.written 0x200008) 16 4 (v / 65536 % 16) ∧
      d.regs.landing = s.dev.regs.landing ++
        [{ addr := 0x200008, lo := 16, width := 4, value := v / 65536 % 16, arrival := now, client := 0 }] ∧
      NewestEvent s.dev d Cls.control 0xA0 2 [b4 8, b1 0, b8 (v % 65536)]) ∧
  (∀ (s : State) (now addr bytes v : Nat), ((bytes ≠ 4 ∧ bytes ≠ 8) ∨ addr % bytes ≠ 0 ∨ 2 ^ 24 < addr + bytes) →
    Runs (.registerWrite now addr bytes v) s fun d =>
      d.reg 0xC00024 = min (2 ^ 32 - 1) (s.dev.reg 0xC00024 + 1) ∧ RegsKept s.dev d [0xC00024] ∧
      d = { s.dev with now := now, regs := d.regs, endpoint := d.endpoint })

/-- A register keeps what is placed in force, every other register is untouched, and a register that nothing has written reads its reset
word (R7, R9).

A buffer's bytes (R89): a read after a write gives the bytes written, every other address keeps its byte, a byte that nothing has written
reads as zero, and each write keeps the one canonical form, so equal contents are equal data. -/
def Obligations.StoresReadBack : Prop :=
  ((∀ (d : Dev) (a v : Nat), (d.setReg a v).reg a = v ∧ RegsKept d (d.setReg a v) [a] ∧
     d.setReg a v = { d with regs := { d.regs with inForce := (d.setReg a v).regs.inForce } }) ∧
   (∀ (d : Dev) (a lo w v : Nat), (d.setField a lo w v).field a lo w = v % 2 ^ w ∧
     (∀ lo' w', lo' + w' ≤ lo ∨ lo + w ≤ lo' → (d.setField a lo w v).field a lo' w' = d.field a lo' w')) ∧
   (∀ a, State.reset.dev.reg a = resetWordAt a)) ∧
  ((∀ (m : List Host.Cell) (a : Nat) (b : Bytes), readBytes (writeBytes m a b) a b.length = b) ∧
   (∀ (m : List Host.Cell) (a x : Nat) (b : Bytes), (x < a ∨ a + b.length ≤ x) → readByte (writeBytes m a b) x = readByte m x) ∧
   (∀ (m : List Host.Cell) (a : Nat) (b : Bytes), memoryWf m = true → memoryWf (writeBytes m a b) = true) ∧
   (∀ a, readByte [] a = 0) ∧
   (∀ m n : List Host.Cell, memoryWf m = true → memoryWf n = true → (∀ a, readByte m a = readByte n a) → m = n))

/-- A time source that is lost while it is in use and no other listed source is qualified leaves the grid in HOLDOVER: TIME_HOLDOVER is
posted with the source and its last offset, and no edge moves (R35, R38, R50). -/
def Obligations.LostSourceHoldsOver : Prop :=
  ∀ (s : State) (x : TimeSource) (i : Instr),
    (x, i) ∈ [(TimeSource.ptp, Instr.ptpSyncTimeout), (.syncIn, .syncInTimeout), (.ref10m, .ref10mLoss), (.ref10m, .ppsTimeout),
      (.peer, .peerTimeTimeout)] →
    s.dev.grid.source = some x → (∀ y ∈ s.dev.listed, y ≠ x → (s.dev.grid.filter y).qualified = false) →
    Runs i s fun d =>
      d.grid.mode = .holdover ∧ d.grid.source = none ∧ (d.grid.filter x).qualified = false ∧
      d.grid.breath = s.dev.grid.breath ∧ d.grid.lastEdge = s.dev.grid.lastEdge ∧ d.grid.nextEdge = s.dev.grid.nextEdge ∧
      NewestEvent s.dev d Cls.time 0x02 x.code [b1 x.code, i8 (toNs s.dev.grid.offset)] ∧
      OnlyEvents { s.dev with grid := d.grid } d

/-- Time inputs against their range checks: what is rejected is counted and leaves the filter's samples alone, and what is accepted is
filtered (R35). -/
def Obligations.TimeInputsChecked : Prop :=
  (∀ (s : State) (p : PtpSync),
    (p.wellFormed = false ∨ p.domain ≠ s.dev.field 0x100028 9 8 ∨ p.port ≠ s.dev.field 0x100028 0 9 ∨ p.logSync < -7 ∨ 1 < p.logSync) →
    Runs (.ptpSync p) s fun d =>
      d.reg 0x100070 = min (2 ^ 32 - 1) (s.dev.reg 0x100070 + 1) ∧ RegsKept s.dev d [0x100070] ∧
      d.grid.ptp.samples = s.dev.grid.ptp.samples ∧ d.grid.source = s.dev.grid.source ∧ d.grid.mode = s.dev.grid.mode ∧
      d = { s.dev with now := p.now, grid := d.grid, regs := d.regs }) ∧
  (∀ (s : State) (p : PtpSync) (f : SourceFilter),
    p.wellFormed = true → p.domain = s.dev.field 0x100028 9 8 → p.port = s.dev.field 0x100028 0 9 → -7 ≤ p.logSync → p.logSync ≤ 1 →
    ptpFilter s.dev.grid.ptp p.offset p.now = some f →
    Runs (.ptpSync p) s fun d =>
      d.grid.ptp = f ∧ d.now = p.now ∧ RegsKept s.dev d [0x318] ∧
      d = { s.dev with now := p.now, grid := d.grid, regs := d.regs, events := d.events, mgmt := d.mgmt }) ∧
  (∀ (s : State) (now width last : Nat), 100000 ≤ width → s.dev.grid.lastSyncPulse = some last →
    (let gap := now - s.dev.field 0x100030 32 32 - last
     let nominal := s.dev.field 0x100030 0 16 * s.dev.spanPs / s.dev.spanN
     gap * 1000 < nominal * 999 ∨ gap * 1000 > nominal * 1001) →
    Runs (.syncInPulse now width) s fun d =>
      d.reg 0x100074 = min (2 ^ 32 - 1) (s.dev.reg 0x100074 + 1) ∧ RegsKept s.dev d [0x100074] ∧
      d.grid = { s.dev.grid with rejects := d.grid.rejects } ∧ d = { s.dev with now := now, grid := d.grid, regs := d.regs }) ∧
  (∀ (s : State) (now width last : Nat), 100000 ≤ width → s.dev.grid.lastSyncPulse = some last →
    (let gap := now - s.dev.field 0x100030 32 32 - last
     let nominal := s.dev.field 0x100030 0 16 * s.dev.spanPs / s.dev.spanN
     nominal * 999 ≤ gap * 1000 ∧ gap * 1000 ≤ nominal * 1001) →
    Runs (.syncInPulse now width) s fun d =>
      d.grid.syncIn.streak = s.dev.grid.syncIn.streak + 1 ∧
      (3 ≤ s.dev.grid.syncIn.streak + 1 → d.grid.syncIn.qualified = true) ∧
      d.grid.lastSyncPulse = some (now - s.dev.field 0x100030 32 32)) ∧
  (∀ (s : State) (now width last : Nat), 1000000 ≤ width → s.dev.grid.lastPps = some last → s.dev.grid.ref10m.carrier = true →
    ((now : Int) - last - 1000000000000).natAbs ≤ 100000000 →
    Runs (.ppsPulse now width) s fun d =>
      d.grid.ref10m.streak = s.dev.grid.ref10m.streak + 1 ∧ (3 ≤ d.grid.ref10m.streak → d.grid.ref10m.qualified = true) ∧
      d.grid.lastPps = some now ∧ d.grid.ppsSecond = s.dev.grid.ppsSecond + 1) ∧
  (∀ (s : State) (hz : Nat), 9999500 ≤ hz → hz ≤ 10000500 →
    Runs (.ref10mQualify hz) s fun d =>
      d = { s.dev with grid := { s.dev.grid with ref10m := { s.dev.grid.ref10m with carrier := true } } })

/-- A returning source whose hold has passed is changed over to: TIME_SOURCE_CHANGE names both sources, and no edge is stepped; the
rejected inputs of a second are reported once and counted afresh (R37, R39, R50).

The loop ports' boundary clock: a delay request on a loop port where the module is master is answered with its receive time, any
other is discarded and counted, and Sync and Announce go out of every such port (R36). -/
def Obligations.SourceChangesAndTheBoundaryClock : Prop :=
  ((∀ (s : State) (t : TimeSource), s.dev.grid.reverting = some t → (s.dev.candidates true).head? = some t →
     Runs .revertHoldExpiry s fun d =>
       d.grid.source = some t ∧ d.grid.lastLocked = some t ∧ d.grid.reverting = none ∧ d.grid.mode = s.dev.grid.mode ∧
       d.grid.breath = s.dev.grid.breath ∧ d.grid.nextEdge = s.dev.grid.nextEdge ∧
       NewestEvent s.dev d Cls.time 0x04 t.code [b1 (codeOf s.dev.grid.source), b1 t.code] ∧ OnlyEvents { s.dev with grid := d.grid } d) ∧
   (∀ (s : State) (input : Nat), 0 < (find s.dev.grid.rejects input).getD 0 →
     Runs (.timeInputReject input) s fun d =>
       (find d.grid.rejects input).getD 0 = 0 ∧ (∀ k, k ≠ input → find d.grid.rejects k = find s.dev.grid.rejects k) ∧
       NewestEvent s.dev d Cls.time 0x08 (codeOf s.dev.grid.source) [b1 input, b4 ((find s.dev.grid.rejects input).getD 0)] ∧
       OnlyEvents { s.dev with grid := { s.dev.grid with rejects := d.grid.rejects } } d)) ∧
  ((∀ (s : State) (port domain : Nat) (source : Bytes) (seq rx : Nat),
     port ∈ s.dev.masterPorts → domain = s.dev.field 0x100028 9 8 →
     Runs (.ptpDelayReq port domain source seq rx) s fun d =>
       d = { s.dev with now := rx, out := .frame port (ptpMessage 9 domain seq (s.dev.refTime rx) (padTo 10 source)) :: s.dev.out }) ∧
   (∀ (s : State) (port domain : Nat) (source : Bytes) (seq rx : Nat),
     (port ∉ s.dev.masterPorts ∨ domain ≠ s.dev.field 0x100028 9 8) →
     Runs (.ptpDelayReq port domain source seq rx) s fun d =>
       d.reg 0x100070 = min (2 ^ 32 - 1) (s.dev.reg 0x100070 + 1) ∧ RegsKept s.dev d [0x100070] ∧
       d = { s.dev with now := rx, regs := d.regs }) ∧
   (∀ (s : State) (now : Nat), Runs (.ptpMasterSync now) s fun d =>
     d.out.length = s.dev.out.length + 2 * s.dev.masterPorts.length ∧
     (∀ p ∈ s.dev.masterPorts, p ≠ s.dev.field 0x100028 0 9 ∧
       .frame p (ptpMessage 0 (s.dev.field 0x100028 9 8) (s.dev.grid.masterSeq % 2 ^ 16) (s.dev.refTime now) []) ∈ d.out) ∧
     d = { s.dev with now := now, out := d.out, grid := { s.dev.grid with masterSeq := s.dev.grid.masterSeq + 1 } }))

/-- Accesses to a stopped clock domain: a read gives 0xC10C_57AD and names the domain, a write that found no entry is dropped, a flush
discards the held writes of the blocks it names, and held writes land in the order written (R53). -/
def Obligations.StoppedClockCrossings : Prop :=
  (∀ (s : State) (addr b : Nat), blockOf addr = some b → (33 ≤ b ∨ s.dev.stopped b = true) →
    Runs (.crossingReadTimeout addr) s fun d =>
      d.reg 0x30 = withBits (withBits (s.dev.reg 0x30) 0 1 1) (8 + b) 1 1 ∧ RegsKept s.dev d [0x30] ∧
      d = { s.dev with regs := d.regs, out := .register addr 0xC10C57AD :: s.dev.out }) ∧
  (∀ (s : State) (block : Nat), (s.dev.crossing.at block).1.length = 16 → (s.dev.crossing.at block).2 ≠ [] →
    Runs (.crossingWriteDrop block) s fun d =>
      d.crossing.at block = ((s.dev.crossing.at block).1, (s.dev.crossing.at block).2.drop 1) ∧
      (∀ b, b ≠ block → d.crossing.at b = s.dev.crossing.at b) ∧
      d.reg 0x30 = withBits (s.dev.reg 0x30) 1 1 1 ∧ RegsKept s.dev d [0x30] ∧
      d = { s.dev with crossing := d.crossing, regs := d.regs }) ∧
  (∀ (s : State) (mask : Nat), Runs (.xingFlush mask) s fun d =>
    (∀ b < 40, d.crossing.at b =
      if bitOf mask b then ((s.dev.crossing.at b).2.take 16, (s.dev.crossing.at b).2.drop 16) else s.dev.crossing.at b) ∧
    d = { s.dev with crossing := d.crossing }) ∧
  (∀ (s : State) (block now : Nat), s.dev.stopped block = false →
    ∃ e : Dev, e.crossing.at block = ([], []) ∧ (∀ b, b ≠ block → e.crossing.at b = s.dev.crossing.at b) ∧
      e = { s.dev with now := now, crossing := e.crossing } ∧
      let held := (s.dev.crossing.at block).1 ++ (s.dev.crossing.at block).2
      let landed := held.foldl (fun d w => (d.writeNow w.client now w.addr w.bytes w.value).1) e
      Becomes (.crossingWriteLand block now) s (landed))

/-- An edge applies its effects in the order of R43: the label, the counters, the windows, the checkpoint, the transactions and the
direct writes, the renewed shapers and budgets, and then the work it sets free. The label goes up by one unless a re-seed has chosen it.

Direct writes that arrive 2 µs or more before an edge land at it, in the order they arrived; the others wait (R45). -/
def Obligations.EdgeAppliesItsEffectsInOrder : Prop :=
  (∀ s : State,
     s.dev.beginBreath.grid.breath = s.dev.grid.seamLabel.getD (s.dev.grid.breath + 1) ∧
     s.dev.beginBreath.grid.lastEdge = s.dev.grid.nextEdge ∧ s.dev.beginBreath.grid.seamLabel = none ∧
     (s.dev.power.saving = none → Becomes .breathEdge s (let labelled := s.dev.beginBreath.clock s.dev.grid.nextEdge
       let closed := (labelled.countEdge.syncOut.closeWindows s.dev.breath).checkpoint
       let changed := closed.changeEdge.nextEdge.renewEdge
       let served := changed.startServing.droneEdge
       ((if served.standbyReady then served.writeLedgers else served).startEdge).trimTraces)) ∧
     (s.dev.power.saving ≠ none → Becomes .breathEdge s (s.dev.beginBreath.clock s.dev.grid.nextEdge).planEdge)) ∧
  (∀ (d : Dev) (edge : Nat),
     (∀ w, w ∈ d.dueWrites edge ↔ w ∈ d.regs.landing ∧ w.arrival + 2000000 ≤ edge) ∧
     (d.dueWrites edge).Sublist d.regs.landing ∧
     (∀ w, w ∈ d.regs.landing → w ∉ d.dueWrites edge → edge < w.arrival + 2000000))

/-- A packet of every TYPE that passes steps 1 to 5 of R60 goes on as R62 says: ACK and NACK entries are acted on one after another, and
the others take the replay filter's verdict, which READ_RESP, RESPONSE and EVENT survive without a reed context.

The replay filter's verdict on an authenticated packet (R64, R70): a packet that differs from its message's entry is dropped, a
refused message draws its NACK again, an admitted packet its ACK again, a packet below the floor STALE, and the rest go on. -/
def Obligations.ReceiveStepsAndReplayVerdicts : Prop :=
  (∀ (s : State) (f : Frame) (p : Packet) (text : Bytes) (d : Dev), Authentic s f p text d →
     (∀ (t : Nat) (i : Instr), (t, i) ∈ receiveRows f → p.header.type = t →
       Becomes i s (d.afterPolicer p text)) ∧
     (p.header.type = 5 → d.afterPolicer p text = (chunks 16 text).foldl (fun d e => d.ackIn p.header.sa e) d) ∧
     (p.header.type = 6 → d.afterPolicer p text = (chunks 16 text).foldl (fun d e => d.nackIn p.header.sa e) d) ∧
     (∀ e, p.header.type ∉ [5, 6] → d.replayVerdict p.header = (e, false) → d.afterPolicer p text = e) ∧
     (∀ e, p.header.type ∈ [2, 4] → d.replayVerdict p.header = (e, true) → d.afterPolicer p text = e.responseIn p.header text) ∧
     (∀ e, p.header.type = 7 → d.replayVerdict p.header = (e, true) → d.afterPolicer p text = e.count 0x200038) ∧
     (∀ e, p.header.type ∈ [0, 1, 3] → d.replayVerdict p.header = (e, true) → d.afterPolicer p text = e.toContext p text)) ∧
  (∀ (d : Dev) (h : Header),
     (d.transport.fetching.all fun w => !(w.step == 7 && w.sa == h.sa && w.msgId == h.msgId && w.pktIndex == h.pktIndex)) = true →
     (∀ e, d.replayEntry h.sa h.msgId = some e → (e.type ≠ h.type ∨ e.target ≠ h.target ∨ e.pktCount ≠ h.pktCount) →
       d.replayVerdict h = (d.count 0x200038, false)) ∧
     (∀ e pkt reason detail, d.replayEntry h.sa h.msgId = some e → e.type = h.type → e.target = h.target → e.pktCount = h.pktCount →
       e.refusal = some (pkt, reason, detail) →
       d.replayVerdict h = ((d.count 0x200028).nack h.sa h.msgId pkt reason detail h.ackNow, false)) ∧
     (∀ e, d.replayEntry h.sa h.msgId = some e → e.type = h.type → e.target = h.target → e.pktCount = h.pktCount →
       e.refusal = none → bitOf e.bitmap h.pktIndex = false → d.replayVerdict h = (d, true)) ∧
     (∀ e, d.replayEntry h.sa h.msgId = some e → e.type = h.type → e.target = h.target → e.pktCount = h.pktCount →
       e.refusal = none → bitOf e.bitmap h.pktIndex = true →
       ∃ r, d.replayVerdict h = (r, false) ∧ r.reg 0x200028 = min (2 ^ 32 - 1) (d.reg 0x200028 + 1)) ∧
     (∀ s, d.replayEntry h.sa h.msgId = none → find d.transport.sas h.sa = some s →
       (1 ≤ (s.floor + 2 ^ 32 - h.msgId % 2 ^ 32) % 2 ^ 32 ∧ (s.floor + 2 ^ 32 - h.msgId % 2 ^ 32) % 2 ^ 32 ≤ 2 ^ 31 →
         d.replayVerdict h = ((d.count 0x20002C).nack h.sa h.msgId h.pktIndex 0x80 s.floor h.ackNow, false)) ∧
       (¬ (1 ≤ (s.floor + 2 ^ 32 - h.msgId % 2 ^ 32) % 2 ^ 32 ∧ (s.floor + 2 ^ 32 - h.msgId % 2 ^ 32) % 2 ^ 32 ≤ 2 ^ 31) →
         d.replayVerdict h = (d, true))))

/-- A packet whose tag fails, and one whose endpoint or address is not its SA's, leaves the replay filter, the reed contexts, the policer
of its SA and every target as they were: it is counted, and nothing is sent (R60, R61). -/
def Obligations.UnauthenticPacketsLeaveNoTrace : Prop :=
  ∀ (d : Dev) (p : Packet) (s : Sa) (k : SaKeys),
    find d.transport.sas p.header.sa = some s → s.accepts (p.header.flags / 128) = true → s.slotOf (p.header.flags / 128) = some k →
    (s.endpoint = p.header.endpoint → s.addr = p.addr →
      Gcm.decrypt k.rxKey (packetNonce k.rxSalt p.header) p.header.bytes p.cipher p.tag = none →
      ∃ e, d.withSa p = e ∧ e.reg 0x200024 = min (2 ^ 32 - 1) (d.reg 0x200024 + 1) ∧ RegsKept d e [0x200024] ∧
        find e.transport.sas p.header.sa = some { s with authFails := s.authFails + 1 } ∧
        (∀ n, n ≠ p.header.sa → find e.transport.sas n = find d.transport.sas n) ∧
        e = { d with regs := e.regs, transport := { d.transport with sas := e.transport.sas } }) ∧
    ((s.endpoint ≠ p.header.endpoint ∨ s.addr ≠ p.addr) →
      ∃ e, d.withSa p = e ∧ e.reg 0x200020 = min (2 ^ 32 - 1) (d.reg 0x200020 + 1) ∧ RegsKept d e [0x200020, 0x318] ∧
        NewestEvent d e Cls.security 0x08 p.header.sa [b4 p.header.endpoint, b16 p.addr] ∧
        e = { d with regs := e.regs, events := e.events, mgmt := e.mgmt })

/-- The timers of the receive side: packets that waited 50 µs are dropped and counted on their ports, entries leave the replay filter
64 ms after their creation, ACKs fall due, stored replies and old key phases end, and what has waited for a context goes on in its order
(R65, R71, R76, R77, R80).

Retransmission: an unacknowledged packet with tries left is sent again under its next TRY, and after the last try its message is
forgotten, counted in HPC_RETX_GIVEUP and its purpose told (R68, R69). -/
def Obligations.TransportTimersAndRetransmission : Prop :=
  ((∀ (s : State) (now : Nat), Runs (.fetchBufferTimeout now) s fun d =>
     d.transport = { s.dev.transport with
       fetching := s.dev.transport.fetching.filter fun w => !decide (w.arrivedAt + 50000000 ≤ now), ports := d.transport.ports } ∧
     (∀ port, d.reg (hpcPort port 0x20) = s.dev.reg (hpcPort port 0x20) +
         (s.dev.transport.fetching.filter fun w => decide (w.arrivedAt + 50000000 ≤ now) && w.port == port).length ∨
       (d.reg (hpcPort port 0x20) = 2 ^ 32 - 1)) ∧
     d = { s.dev with now := now, regs := d.regs, transport := d.transport }) ∧
   (∀ (s : State) (now : Nat), (∃ e ∈ s.dev.transport.replay, e.createdAt + 64000000000 ≤ now) →
     Runs (.replayEntryExpire now) s fun d =>
       d.transport.replay = (s.dev.transport.replay.filter fun e => !decide (e.createdAt + 64000000000 ≤ now)) ∧
       d.transport.horizonUs = 64000 ∧ d = { s.dev with now := now, transport := d.transport } ∧
       (∀ e, s.dev.transport.replay = [e] → ∀ x, find s.dev.transport.sas e.sa = some x →
         (find d.transport.sas e.sa).map Sa.floor =
           some (if belowFloor ((e.msgId + 1) % 2 ^ 32) x.floor then x.floor else (e.msgId + 1) % 2 ^ 32))) ∧
   (∀ (s : State) (sa : Nat) (x : Sa), find s.dev.transport.sas sa = some x → s.dev.saActive sa = true →
     Runs (.ackDelayExpiry sa) s fun d => ∃ y, find d.transport.sas sa = some y ∧ y.ackDue = x.ackDue.eraseDups.drop 512 ∧
       y.nackDue = x.nackDue.eraseDups.drop 512 ∧ y.unacked = 0) ∧
   (∀ (s : State) (sa : Nat) (nonce : Bytes) (x : Sa), find s.dev.transport.sas sa = some x →
     Runs (.kexNonceExpire sa nonce) s fun d =>
       find d.transport.sas sa = some { x with replies := x.replies.filter fun r => r.nonce != nonce } ∧
       (∀ n, n ≠ sa → find d.transport.sas n = find s.dev.transport.sas n) ∧
       d = { s.dev with transport := { s.dev.transport with sas := d.transport.sas } }) ∧
   (∀ (s : State) (sa : Nat) (x : Sa), find s.dev.transport.sas sa = some x → x.oldPhase = true →
     Runs (.keyPhaseOldExpire sa) s fun d => ∃ y, find d.transport.sas sa = some y ∧ y.oldPhase = false ∧
       y.slotOf (1 - x.phase) = none ∧ y.slotOf x.phase = x.slotOf x.phase ∧
       (x.phase ≤ 1 → y.phase = x.phase) ∧ d = { s.dev with transport := { s.dev.transport with sas := d.transport.sas } }) ∧
   (∀ (s : State) (sa target now : Nat) (w : WaitingPacket),
     s.dev.transport.fetching.find? (fun w => w.step == 2 && w.sa == sa) = some w →
     ∃ e : Dev, e.transport.fetching = (s.dev.transport.fetching.filter fun x => !(x.step == 2 && x.sa == sa)) ∧
       sa ∈ e.transport.saCache ∧ e.now = now ∧
       Becomes (.fetchComplete 2 sa target now) s ((s.dev.transport.fetching.filter fun x => x.step == 2 && x.sa == sa).foldl (fun d w => match w.packet d with
           | some p => d.withSa p
           | none => d) e))) ∧
  (∀ (s : State) (sa msgId pkt : Nat) (m : OutMessage), find s.dev.transport.sent (sa * 2 ^ 32 + msgId) = some m →
     pkt < m.packets.length → bitOf m.acked pkt = false →
     (m.tries.getD pkt 0 < s.dev.field 0x200008 16 4 → s.dev.saActive sa = true →
       Becomes (.retxTimer sa msgId pkt) s (s.dev.sendPacket m pkt)) ∧
     (s.dev.field 0x200008 16 4 ≤ m.tries.getD pkt 0 →
       ∃ e : Dev, find e.transport.sent (sa * 2 ^ 32 + msgId) = none ∧
         e.reg 0x20003C = min (2 ^ 32 - 1) (s.dev.reg 0x20003C + 1) ∧ RegsKept s.dev e [0x20003C] ∧
         e = { s.dev with regs := e.regs, transport := { s.dev.transport with sent := e.transport.sent } } ∧
         Becomes (.retxTimer sa msgId pkt) s (e.messageFailed m 3 (m.packets.length - ones m.packets.length m.acked))))

/-- The handshake: an INIT that is right draws a REPLY under fresh keys, one that repeats a stored nonce draws the stored REPLY, and any
other is dropped without a reply and counted (R79, R80).

Keys that a REPLY installs: on a rekey they stand in the slot not in use and both sequences and the floor go on; otherwise the floor
is the peer's START_MSG_ID and the filter forgets the SA (R80). -/
def Obligations.HandshakesAnswerAndInstallKeys : Prop :=
  (∀ (s : State) (f : Frame) (init : Bytes) (addr : Nat),
     let d := s.dev.clock f.now
     let e := d.total (hpcPort f.port 0x28) 32 1
     let sa := beNat (slice init 2 2)
     d.takesFrames f.port = true → passesOn f.port f.bytes = false → d.classify f = .kex init addr →
     (find d.transport.sas sa = none → Runs (.kexInit f) s fun r =>
       r.reg 0x200034 = min (2 ^ 32 - 1) (e.reg 0x200034 + 1) ∧ (r.port f.port).secondKex = (d.port f.port).secondKex + 1 ∧
       r.out = s.dev.out ∧ r.transport.sas = s.dev.transport.sas ∧ RegsKept s.dev r [0x200034, hpcPort f.port 0x28]) ∧
     (∀ x, find d.transport.sas sa = some x → init.length = 3212 → byteAt init 0 = 1 → x.endpoint = beNat (slice init 4 4) → x.addr = addr →
       (shake256 (x.secret ++ ascii "CUCHAIL INIT" ++ slice init 0 3180) 32 ≠ slice init 3180 32 →
         Becomes (.kexInit f) s (e.rejectKex f.port)) ∧
       (shake256 (x.secret ++ ascii "CUCHAIL INIT" ++ slice init 0 3180) 32 = slice init 3180 32 →
         (∀ r, x.replies.find? (fun r => r.nonce == slice init 12 32) = some r →
           Becomes (.kexInit f) s (e.sendReply f.port sa x.addr r.reply)) ∧
         (∀ n ss1, x.replies.find? (fun r => r.nonce == slice init 12 32) = none → d.cipher.stopped = false →
           oneOfHundred (e.field 0x200018 0 16) f.now d.transport.kexAnswered = some n →
           Config.decapsulate (slice init 44 1568) = some ss1 →
           Becomes (.kexInit f) s ((e.onTransport fun t => { t with kexAnswered := n }).answerKex f.port sa x init ss1))))) ∧
  (∀ (d : Dev) (sa port start first : Nat) (k : SaKeys) (r : StoredReply) (x : Sa), find d.transport.sas sa = some x →
     (∃ y, find (d.installKeys sa port start first true k r).transport.sas sa = some y ∧ y.slotOf (1 - x.phase) = some k ∧
       (x.phase ≤ 1 → y.slotOf x.phase = x.slotOf x.phase) ∧ y.pendingSlot = some (1 - x.phase, start, true) ∧ y.floor = x.floor ∧
       y.nextMsg = x.nextMsg ∧ y.state = x.state ∧ (d.installKeys sa port start first true k r).transport.replay = d.transport.replay) ∧
     (∃ y, find (d.installKeys sa port start first false k r).transport.sas sa = some y ∧ y.slot0 = some k ∧ y.slot1 = none ∧
       y.pendingSlot = some (0, start, false) ∧ y.floor = start ∧ y.nextMsg = first ∧ y.state = x.state ∧
       ∀ e ∈ (d.installKeys sa port start first false k r).transport.replay, e.sa ≠ sa))

/-- Ports: a port in service comes up with its event, loses its link with its cause, is fenced by a failed MAC or a failed optical
engine, and its filtered monitors are the medians of five samples (R83, R84, R85). -/
def Obligations.PortLinkStates : Prop :=
  (∀ (s : State) (p : Nat), p < 260 → bitOf (s.dev.reg (hpcPort p 0)) 0 = true → (s.dev.port p).fenced = false → (s.dev.port p).up = false →
    Runs (.portUp p) s fun d =>
      (d.port p).up = true ∧ d.reg (hpcPort p 4) = withBits (s.dev.reg (hpcPort p 4)) 0 3 (1 + 2 * s.dev.field (hpcPort p 0) 1 2) ∧
      RegsKept s.dev d [hpcPort p 4, 0x318] ∧ (∀ q, q ≠ p → d.port q = s.dev.port q) ∧
      NewestEvent s.dev d Cls.port 0x01 p [b1 (s.dev.field (hpcPort p 0) 1 2), b1 (s.dev.field (hpcPort p 0) 3 2)]) ∧
  (∀ (s : State) (p : Nat), (s.dev.port p).up = true →
    Runs (.portDown p) s fun d => (d.port p).up = false ∧ d.field (hpcPort p 4) 0 1 = 0 ∧ (∀ q, q ≠ p → d.port q = s.dev.port q) ∧
      d.transport.sas = s.dev.transport.sas ∧ d.transport.replay = s.dev.transport.replay ∧ d.memory = s.dev.memory) ∧
  (∀ (s : State) (p : Nat), p < 260 → (s.dev.port p).fenced = false →
    Runs (.portMacFault p) s fun d => (d.port p).fenced = true ∧ (d.port p).up = false ∧ d.field (hpcPort p 4) 3 1 = 1 ∧
      (∀ q, q ≠ p → d.port q = s.dev.port q) ∧ d.transport.sas = s.dev.transport.sas ∧ d.transport.replay = s.dev.transport.replay) ∧
  (∀ (s : State) (i : Instr) (engine fault : Nat), engine < 16 →
    (i = .portOpticsFault engine fault ∨ (∃ p, p / 16 = engine ∧ i = .opticsSampleTimeout p)) →
    Runs i s fun d => (∀ q, q / 16 = engine → (d.port q).fenced = true ∧ ((s.dev.port q).fenced = false → (d.port q).up = false)) ∧
      (∀ q, q / 16 ≠ engine → d.port q = s.dev.port q) ∧ d.transport.sas = s.dev.transport.sas ∧
      d.transport.replay = s.dev.transport.replay) ∧
  (∀ (s : State) (p : Nat) (rx bias temp : Int), p < 260 →
    Runs (.opticsSample p rx bias temp) s fun d =>
      d.field (hpcPort p 0x10) 0 16 = unsignedOf (median ((rx :: (s.dev.port p).rxPower).take 5)) 16 ∧
      d.field (hpcPort p 0x10) 16 16 = unsignedOf bias 16 ∧ (d.port p).up = (s.dev.port p).up ∧
      RegsKept s.dev d [hpcPort p 0x10, 0x318] ∧ (∀ q, q ≠ p → d.port q = s.dev.port q)) ∧
  (∀ (s : State) (f : Frame) (kind : Neighbour) (b : Bytes) (n : Nat × Nat), s.dev.pointUp f.port = true → f.port < 260 → f.fcsOk = true →
    (kind = .arp ∨ kind = .neighbourSolicitation ∨ s.dev.field (hpcPort f.port 0) 18 1 = 1) →
    neighbourAnswer (Config.portMac f.port) (Config.portAddress4 f.port) (Config.portAddress f.port) (s.dev.vlanTag f.port) kind f.bytes =
      some b → oneOfHundred 100 f.now (s.dev.port f.port).answers = some n →
    Becomes (.neighbourRequest f kind) s (((s.dev.clock f.now).onPort f.port fun p => { p with answers := n }).sendControl f.port b))

/-- A packet that step 8 admits to a region lies inside it, under the current key and with its right: a buffer's bytes within LENGTH, a
window's within its area, aligned, for the current or the next breath, in a free slot of an ARMED window (R91, R93, R96, R97, R98).

BREATH_LO is expanded about the breath in force: a label within 2^31 of it is that very breath (R97). -/
def Obligations.AdmittedPacketsLieInTheirRegion : Prop :=
  (∀ (d : Dev) (h : Header) (text : Bytes) (r : Reed), d.regionFinding h text r = .pass →
     ∃ x, find d.memory.regions (h.target / 256) = some x ∧ x.life = .held ∧ x.gen = h.target % 256 ∧
       (r.kind ≠ .window → h.type = 0 → r.mayWrite = true ∧ h.offset + text.length ≤ x.length) ∧
       (r.kind ≠ .window → h.type = 1 → r.mayRead = true ∧ 1 ≤ beNat (slice text 0 4) ∧ beNat (slice text 0 4) ≤ 4194304 ∧
         h.offset + beNat (slice text 0 4) ≤ x.length) ∧
       (r.kind = .window → ∃ w, find d.memory.windows r.target = some w ∧ w.mode = .armed ∧ h.type = 0 ∧ r.mayWrite = true ∧
         (let b := expandLabel d.breath h.breathLo
          let unit := if bitOf h.offset 48 then 16 else 4096
          (b = d.breath ∨ b = d.breath + 1) ∧ (w.firstBreath : Int) ≤ b ∧
          (w.wrap = false → b < w.firstBreath + w.rangeBreaths) ∧ w.slotFree b.toNat = true ∧
          h.offset < 2 ^ 49 ∧ h.offset % 2 ^ 48 + text.length ≤ w.slotBlocks * unit ∧
          h.offset % 2 ^ 48 % unit = 0 ∧ text.length % unit = 0 ∧ (bitOf h.offset 48 = true → w.checkCarried = true)))) ∧
  ((∀ (n b : Nat), b ≤ n + 2 ^ 31 - 1 → n ≤ b + 2 ^ 31 → expandLabel n (b % 2 ^ 32) = b) ∧
   expandLabel 0x200000003 0xFFFFFFFF = 0x1FFFFFFFF)

/-- Revocation: at its edge the generation goes up by 1 modulo 256 and the index takes no new work, and when the drain has ended the
memory is released and REGION_REVOKE completes with OK (R88, R94). -/
def Obligations.RevocationRaisesTheGenerationAndDrains : Prop :=
  (∀ (d : Dev) (i : Nat) (r : Region) (q : Option Nat), find d.memory.regions i = some r →
    find (d.revoke i q).memory.regions i = some { r with gen := (r.gen + 1) % 256, life := .revoking q } ∧
    (∀ k, k ≠ i → find (d.revoke i q).memory.regions k = find d.memory.regions k) ∧
    d.revoke i q = { d with memory := { d.memory with regions := (d.revoke i q).memory.regions } }) ∧
  (∀ (s : State) (i now q : Nat) (r : Region), find s.dev.memory.regions i = some r → r.life = .revoking (some q) →
    s.dev.landingIn i = false → (s.dev.front.flight.any fun f => f.2.usesRegion i) = false →
    ∃ e : Dev, find e.memory.regions i = some { r with life := .released now, mem := [] } ∧
      (∀ k, k ≠ i → find e.memory.regions k = find s.dev.memory.regions k) ∧
      e = { s.dev with now := now, memory := { s.dev.memory with regions := e.memory.regions } } ∧
      Becomes (.revokeDrainDone i now) s (e.complete q 0 0)) ∧
  (∀ (s : State) (i now : Nat) (r : Region), find s.dev.memory.regions i = some r → r.life = .revoking none →
    s.dev.landingIn i = false → (s.dev.front.flight.any fun f => f.2.usesRegion i) = false →
    Runs (.revokeDrainDone i now) s fun e =>
      find e.memory.regions i = some { r with life := .released now, mem := [] } ∧
      e = { s.dev with now := now, memory := { s.dev.memory with regions := e.memory.regions } })

/-- Copies at input: a copy of the partner's packet enters the mirror of its slot and is acknowledged unless the slot still holds another
breath, and the camera's ACK falls due when the partner has taken this module's copy (R106).

Egress (R335 to R339): a point that is up sends the head of its one queue, whatever its service; a lower class waits for CONTROL traffic;
shapers accrue in RATE mode only, and a sent packet moves its node's tags by its length over its weight. -/
def Obligations.EgressCopiesAndSends : Prop :=
  ((∀ (s : State) (c : SlotCopy), (∀ x ∈ s.dev.peer.slots, x.window = c.window → x.breath = c.breath) →
     Runs (.plCopyRx c) s fun d =>
       d = { s.dev with peer := { s.dev.peer with slots := s.dev.peer.slots ++ [c] }, out := .peer (.acknowledge 0) :: s.dev.out }) ∧
   (∀ (s : State) (window breath sa msgId pkt : Nat),
     let c : PlCopy := { sa := sa, msgId := msgId, pktIndex := pkt, window := window, breath := breath }
     c ∈ s.dev.memory.plCopies →
     Becomes (.plCopyAck window breath sa msgId pkt) s
       (({ s.dev with memory := { s.dev.memory with plCopies := s.dev.memory.plCopies.erase c } }).admitted sa msgId false))) ∧
  ((∀ (s : State) (point now : Nat), (s.dev.pointUp point = false ∨ s.dev.slicesOut = true ∨ 260 ≤ point) →
     Runs (.egressSend point now) s fun d => d.out = s.dev.out ∧ d.switch.queues = s.dev.switch.queues ∧ d.regs = s.dev.regs) ∧
   (∀ (s : State) (point now v sa : Nat) (p : QueuedPacket) (t : List QueuedPacket), point < 260 → v < 8 → sa < 2 ^ 15 →
     s.dev.pointUp point = true → s.dev.slicesOut = false → p.spilled = false → s.dev.switch.nodes = [] →
     s.dev.switch.queues = [((point * 8 + v) * 32768 + sa, { point := point, service := v, sa := sa, packets := p :: t })] →
     Runs (.egressSend point now) s fun d => d.out = .frame point p.bytes :: s.dev.out ∧
       d.switch.queues = (if t = [] then [] else [((point * 8 + v) * 32768 + sa, { point := point, service := v, sa := sa, packets := t })]) ∧
       d.reg (0x20102C + 0x40 * point) = (s.dev.reg (0x20102C + 0x40 * point) + 1) % 2 ^ 32 ∧ RegsKept s.dev d [0x20102C + 0x40 * point]) ∧
   (∀ (s : State) (point now v sa sb : Nat) (p q : QueuedPacket) (t u : List QueuedPacket), point < 260 → 1 ≤ v → v < 8 → sa < 2 ^ 15 →
     sb < 2 ^ 15 → s.dev.pointUp point = true → s.dev.slicesOut = false → p.spilled = false → s.dev.switch.nodes = [] →
     s.dev.switch.queues = [(point * 262144 + sa, { point := point, service := 0, sa := sa, packets := p :: t }),
       ((point * 8 + v) * 32768 + sb, { point := point, service := v, sa := sb, packets := q :: u })] →
     Runs (.egressSend point now) s fun d => d.out = .frame point p.bytes :: s.dev.out) ∧
   (∀ (n : Node) (now : Nat), n.unlimited = false → n.quota = false → n.rate ≠ 0 →
     (n.accrue now).tokens = min (n.burst * 8192000000) (n.tokens + n.rate * (now - n.filledAt))) ∧
   (∀ (n : Node) (now : Nat), (n.unlimited = true ∨ n.quota = true ∨ n.rate = 0) → (n.accrue now).tokens = n.tokens) ∧
   (∀ (n : Node) (len : Nat), n.allows len = true ↔ n.unlimited = true ∨ (n.rate ≠ 0 ∧ len * 8000000 ≤ n.tokens)) ∧
   (∀ (d : Dev) (parent child len : Nat), parent ≠ child →
     let e := d.charge parent child len
     (e.node parent).virtual = (d.node child).start ∧
     (e.node child).finish = ((d.node child).start + len * 65536 / max 1 (d.node child).weight) % 2 ^ 64 ∧
     (e.node child).start = (e.node child).finish ∧ (∀ k, k ≠ parent → k ≠ child → e.node k = d.node k)) ∧
   (∀ (d : Dev) (l : List Child), l ≠ [] → (∀ c ∈ l, (d.node c.key).start < 2 ^ 63) →
     ∃ c ∈ l, d.smallest l = some c ∧ ∀ b ∈ l, (d.node c.key).start ≤ (d.node b.key).start))

/-- A window's breath closes at the edge that ends it: its commit takes the next ADMIT_SEQ, the generation in force and the coverage of
its slot, and nothing of any other window changes (R43, R101). -/
def Obligations.BreathsCloseWithTheirCoverage : Prop :=
  ∀ (d : Dev) (w b : Nat) (x : Window), find d.memory.windows w = some x →
    ∃ y, find (d.closeBreath w b).memory.windows w = some y ∧ (y.breathOf b).seq = some d.front.admitNext ∧
      (y.breathOf b).gen = d.control.gen ∧ (y.breathOf b).covered = x.coverage b ∧
      (∀ c, c ≠ b → find y.breaths c = find x.breaths c) ∧ y = { x with breaths := y.breaths } ∧
      (∀ v, v ≠ w → find (d.closeBreath w b).memory.windows v = find d.memory.windows v) ∧
      (d.closeBreath w b).front = { d.front with admitNext := d.front.admitNext + 1 } ∧
      d.closeBreath w b = { d with memory := { d.memory with windows := (d.closeBreath w b).memory.windows }, front := (d.closeBreath w b).front }

/-- Polls and the module's reads of host memory (R114, R116, R455): a poll reads the entry at the head, an entry that the host still owns
is left alone, a read without a completion is ended, counted, and its tag kept in quarantine, and a late completion is counted. -/
def Obligations.PollsAndHostReads : Prop :=
  (∀ (s : State) (sq now : Nat) (q : Sq), find s.dev.front.sqs sq = some q → (s.dev.clock now).fetched sq q = true → q.taken = [] →
    s.dev.polling sq = false → 0 < (s.dev.clock now).fetchRoom sq q →
    (q.place = .host → Becomes (.sqPoll sq now) s ((s.dev.clock now).hostRead (.poll sq q.head) (q.addr + 64 * q.head) 64)) ∧
    (q.place = .bell →
      let n := min ((s.dev.clock now).fetchRoom sq q) (min 64 (q.entries - q.head))
      ∃ e : Dev, find e.front.sqs sq = some { q with waiting := q.waiting.drop n } ∧
        e = { s.dev with now := now, front := { s.dev.front with sqs := e.front.sqs } } ∧
        Becomes (.sqPoll sq now) s (e.take sq (q.waiting.take n)))) ∧
  (∀ (s : State) (sq now : Nat) (q : Sq), find s.dev.front.sqs sq = some q →
    (q.pollInterval = 0 ∨ q.fenced = true ∨ q.deleting.isSome = true) →
    Runs (.sqPoll sq now) s fun d => d = { s.dev with now := now }) ∧
  (∀ (s : State) (tag sq head now : Nat) (b : Bytes), find s.dev.endpoint.reads tag = some (.poll sq head) → s.dev.endpoint.waitingReads = [] →
    bitOf (byteAt (padTo 64 b) 63) 7 = false → ∀ answer ∈ [HostAnswer.data b, .unsuccessful],
    Runs (.hostReadCompletion tag now answer) s fun d =>
      find d.endpoint.reads tag = none ∧ (∀ t, t ≠ tag → find d.endpoint.reads t = find s.dev.endpoint.reads t) ∧
      d = { s.dev with now := now, endpoint := { s.dev.endpoint with reads := d.endpoint.reads } }) ∧
  (∀ (s : State) (tag now : Nat) (answer : HostAnswer), find s.dev.endpoint.reads tag = none → tag ∈ s.dev.endpoint.quarantined →
    Runs (.hostReadCompletion tag now answer) s fun d =>
      d.reg 0xC00028 = min (2 ^ 32 - 1) (s.dev.reg 0xC00028 + 1) ∧ RegsKept s.dev d [0xC00028] ∧
      d = { s.dev with now := now, regs := d.regs }) ∧
  (∀ (s : State) (tag : Nat) (p : ReadPurpose), find s.dev.endpoint.reads tag = some p →
    ∃ e : Dev, e.reg 0xC00030 = min (2 ^ 32 - 1) (s.dev.reg 0xC00030 + 1) ∧ RegsKept s.dev e [0xC00030] ∧
      tag ∈ e.endpoint.quarantined ∧ e.front = s.dev.front ∧ e.transport = s.dev.transport ∧ e.memory = s.dev.memory ∧
      Becomes (.cplTimeout tag) s (e.readFailed p 1)) ∧
  (∀ (s : State) (tag : Nat), Runs (.tagQuarantineEnd tag) s fun d =>
    tag ∉ d.endpoint.quarantined ∧ (∀ t, t ≠ tag → (t ∈ d.endpoint.quarantined ↔ t ∈ s.dev.endpoint.quarantined)) ∧
    d = { s.dev with endpoint := d.endpoint, out := d.out })

/-- Full completion rings (R115, R123, R124): a chain drains into a HOST ring oldest first, a stall that outlasts its limit turns the chain
into the fenced-queue record and fences every SQ bound to the CQ, and a full PEER ring is offered its entries again. -/
def Obligations.FullRingsDrainStallAndFence : Prop :=
  (∀ (s : State) (cq now : Nat) (q : Cq), find s.dev.front.cqs cq = some q → q.place = .host → q.fenced = false → q.chain ≠ [] →
    q.chain.length + 32 ≤ q.free → q.tail < q.entries → s.dev.busMaster = true →
    Runs (.chainDrain cq now) s fun d =>
      find d.front.cqs cq = some { q with chain := [], tail := (q.tail + q.chain.length) % q.entries, free := q.free - q.chain.length
                                          stallStart := now, stalled := false } ∧
      (∀ k, k ≠ cq → find d.front.cqs k = find s.dev.front.cqs k) ∧ d.front.sqs = s.dev.front.sqs ∧ d.front.flight = s.dev.front.flight ∧
      (∃ sent : List Output, (sent = [] ∨ sent = [.interrupt q.vector]) ∧ (q.irqEn = false → sent = []) ∧
        d.out = sent ++ ((q.chain.zip (List.range q.chain.length)).flatMap fun c =>
          let a := q.addr + 32 * ((q.tail + c.2) % q.entries)
          [.hostWrite a ((c.1.bytes true).take 31), .hostWrite (a + 31) ((c.1.bytes true).drop 31)]).reverse ++ s.dev.out) ∧
      (q.stalled = true → ∀ c, c = q.client → c < 4 → s.dev.hears c Cls.queue = true →
        (d.client c).history.head? = some { cls := Cls.queue, code := 0x02, unit := queueNumber cq % 2 ^ 16, breath := s.dev.breath
                                            data := [b4 ((now - q.stallBegan) / 1000000)] }) ∧
      d = { s.dev with now := now, front := d.front, out := d.out, endpoint := d.endpoint, events := d.events, regs := d.regs, mgmt := d.mgmt }) ∧
  (∀ (s : State) (cq now : Nat) (q : Cq), find s.dev.front.cqs cq = some q → q.stalled = true → q.fenced = false →
    isMouthpiece cq = false →
    q.stallStart + (if q.stallMs = 0 then s.dev.field 0x500018 0 16 else q.stallMs) * 1000000000 ≤ now →
    Runs (.stallLimit cq now) s fun d =>
      find d.front.cqs cq = some { q with fenced := true, stalled := false, record := q.record ++ q.outstanding ++ q.chain
                                          chain := [], outstanding := [] } ∧
      (∀ k, k ≠ cq → find d.front.cqs k = find s.dev.front.cqs k) ∧
      (∀ k x, find s.dev.front.sqs k = some x → x.cq = cq → find d.front.sqs k = some { x with fenced := true }) ∧
      (∀ k, (∀ x, (k, x) ∈ s.dev.front.sqs → x.cq ≠ cq) → find d.front.sqs k = find s.dev.front.sqs k) ∧
      (q.client < 4 → s.dev.hears q.client Cls.queue = true → (d.client q.client).history.head? =
        some { cls := Cls.queue, code := 0x03, unit := cq % 2 ^ 16, breath := s.dev.breath, data := [b1 1, b1 1, b4 q.tail] }) ∧
      d.front.flight = s.dev.front.flight ∧ RegsKept s.dev d [0x318] ∧
      d = { s.dev with now := now, front := d.front, events := d.events, regs := d.regs, mgmt := d.mgmt }) ∧
  (∀ (s : State) (cq now : Nat) (q : Cq), find s.dev.front.cqs cq = some q →
    now < q.stallStart + (if q.stallMs = 0 then s.dev.field 0x500018 0 16 else q.stallMs) * 1000000000 →
    Runs (.stallLimit cq now) s fun d => d = { s.dev with now := now }) ∧
  (∀ (s : State) (client now : Nat), client < 4 → Runs (.stallLimit (32768 + client) now) s fun d => d = { s.dev with now := now }) ∧
  (∀ (s : State) (cq : Nat) (q : Cq), find s.dev.front.cqs cq = some q → q.place = .peer → q.peerFull = true → q.fenced = false →
    q.outstanding = [] → q.chain ≠ [] → s.dev.saActive q.sa = true →
    Runs (.responseReoffer cq) s fun d => ∃ x r, find s.dev.transport.sas q.sa = some x ∧ find d.front.cqs cq = some r ∧
      r.outstanding = q.chain.take 256 ∧ r.chain = q.chain.drop 256 ∧ r.peerFull = false ∧ r.outstandingMsg = x.nextMsg ∧
      (∀ k, k ≠ cq → find d.front.cqs k = find s.dev.front.cqs k) ∧ d.front.sqs = s.dev.front.sqs ∧
      ∃ m, find d.transport.sent (q.sa * 2 ^ 32 + x.nextMsg) = some m ∧ m.type = 4 ∧ m.target = q.peerCq ∧
        m.packets = [(0, 0, ((q.chain.take 256).map fun c => c.bytes true).flatten)]) ∧
  (∀ (s : State) (cq : Nat), (∀ q, find s.dev.front.cqs cq = some q → q.place ≠ .peer ∨ q.peerFull = false ∨ q.fenced = true) →
    Idles (.responseReoffer cq) s)

/-- Deletion of a queue ends with its last command, and CMD_MP0_CFG starts and stops the mouthpiece of client 0 (R119, R121). -/
def Obligations.QueuesEndAndTheMouthpieceStarts : Prop :=
  (∀ (s : State) (sq seq : Nat) (q : Sq), find s.dev.front.sqs sq = some q → q.deleting = some seq →
    (∀ f ∈ s.dev.front.flight, f.2.sq ≠ sq) →
    ∃ e : Dev, find e.front.sqs sq = none ∧ (∀ k, k ≠ sq → find e.front.sqs k = find s.dev.front.sqs k) ∧
      e = { s.dev with front := { s.dev.front with sqs := e.front.sqs } } ∧ Becomes (.sqDeleteDone sq) s (e.complete seq 0 0)) ∧
  (∀ (s : State) (sq : Nat) (q : Sq), find s.dev.front.sqs sq = some q →
    (q.deleting = none ∨ ∃ f ∈ s.dev.front.flight, f.2.sq = sq) → Idles (.sqDeleteDone sq) s) ∧
  (∀ (s : State) (now v : Nat), s.dev.field 0x500010 32 1 = 0 → 2 ≤ v % 65536 → v % 65536 ≤ 4096 → bitOf v 32 = true →
    Runs (.mp0Enable now v) s fun d =>
      d.field 0x500010 32 1 = 1 ∧ d.field 0x500010 0 16 = v % 65536 ∧
      (∃ q, find d.front.sqs 32768 = some q ∧ q.place = .host ∧ q.entries = v % 65536 ∧ q.addr = s.dev.reg 0x500000 ∧ q.head = 0 ∧
        q.taken = [] ∧ q.cq = 32768 ∧ q.maxInflight = 256 ∧ q.pollInterval = bitsOf v 16 16 ∧ q.fenced = false) ∧
      (∃ c, find d.front.cqs 32768 = some c ∧ c.place = .host ∧ c.entries = v % 65536 ∧ c.addr = s.dev.reg 0x500008 ∧ c.tail = 0 ∧
        c.irqEn = bitOf v 33 ∧ c.vector = bitsOf v 34 11 ∧ c.fenced = false ∧
        ∀ o, find s.dev.front.cqs 32768 = some o → c.chain = o.chain) ∧
      (∀ k, k ≠ 32768 → find d.front.sqs k = find s.dev.front.sqs k ∧ find d.front.cqs k = find s.dev.front.cqs k) ∧
      d.front.flight = s.dev.front.flight ∧ RegsKept s.dev d [0x500010]) ∧
  (∀ (s : State) (now v : Nat), s.dev.field 0x500010 32 1 = 1 → bitOf v 32 = false →
    Runs (.mp0Enable now v) s fun d =>
      d.field 0x500010 32 1 = 0 ∧ d.field 0x500010 0 16 = s.dev.field 0x500010 0 16 ∧
      (∀ q, find s.dev.front.sqs 32768 = some q → find d.front.sqs 32768 = some { q with taken := [], reading := false }) ∧
      (∀ k, k ≠ 32768 → find d.front.sqs k = find s.dev.front.sqs k) ∧ d.front.cqs = s.dev.front.cqs ∧
      d.front.flight = s.dev.front.flight ∧ RegsKept s.dev d [0x500010])

/-- Every command of the opcode table comes as an entry at the head of its queue: the module takes it, the head moves on, OWN of a HOST
slot is cleared, and the entry is refused where it is malformed and admitted where it is not (R114, R122, R128, R156). -/
def Obligations.EntriesAreTakenAndAdmitted : Prop :=
  ∀ (s : State) (c : Submit) (op : Nat) (i : Instr) (q : Sq), (op, i) ∈ submitRows c → find s.dev.front.sqs c.sq = some q →
    let e := padTo 64 c.entry
    let sa := if q.place = .host then 0 else c.sa
    byteAt e 0 = op → (i = .reseed c → leAt c.entry 8 8 = 0x100040) → bitOf (byteAt e 63) 7 = true →
    (s.dev.clock c.now).fetched c.sq q = true → 0 < (s.dev.clock c.now).fetchRoom c.sq q → q.taken = [] →
    (q.waiting = [] ∨ q.waiting.head? = some (sa, e)) →
    ∃ t : Dev,
      find t.front.sqs c.sq = some { q with head := (q.head + 1) % max 1 q.entries, waiting := q.waiting.drop 1 } ∧
      (∀ k, k ≠ c.sq → find t.front.sqs k = find s.dev.front.sqs k) ∧
      (q.place = .host → t.out = .hostWrite (q.addr + 64 * q.head + 63) [0] :: s.dev.out) ∧
      (q.place ≠ .host → t.out = s.dev.out) ∧
      t = { s.dev with now := c.now, out := t.out, front := { s.dev.front with sqs := t.front.sqs } } ∧
      (t.malformed c.sq e = true → Becomes i s (t.refuseMalformed c.sq q.head e)) ∧
      (t.malformed c.sq e = false → t.mustRead c.sq sa e = true → Becomes i s (t.admitEntry c.sq sa e c.data)) ∧
      (t.malformed c.sq e = false → t.mustRead c.sq sa e = false → Becomes i s (t.admitEntry c.sq sa e (t.atHand e)))

/-- What admission does with an entry (R129, R130, R145, R152, R153): it takes the next count; an opcode that its queue does not accept, and a
Txn command without a transaction, complete at once; a Txn command that passes is recorded and nothing else changes; TXN_BEGIN opens
transaction n with RESULT n; ABORT completes its target first. -/
def Obligations.AdmissionVerdictsAndRecording : Prop :=
  (∀ (d : Dev) (key sa : Nat) (e : Bytes) (f : Fetched),
    let seq := d.front.admitNext
    ∃ x : InFlight, x.sq = key ∧ x.entry = e ∧ x.gen = d.control.gen ∧ x.stage = .waiting ∧
      let a : Dev := { d with front := { d.front with admitNext := seq + 1, flight := put d.front.flight seq x } }
      (isMouthpiece key = false → byteAt e 0 ∉ [0x01, 0x02, 0x03, 0x08] → d.admitEntry key sa e f = a.complete seq 0x10 0) ∧
      (isMouthpiece key = true → byteAt e 0 ∈ txnOpcodes ++ [0x41, 0x42] → find d.control.txns (key - 32768) = none →
        d.admitEntry key sa e f = a.complete seq 0x51 0) ∧
      (∀ status result, Verdict.andThen (d.entryVerdict key sa e) (d.lateVerdict key seq e f) = some (status, result) →
        d.admitEntry key sa e f = a.complete seq status result)) ∧
  (∀ (d : Dev) (key sa : Nat) (e : Bytes) (f : Fetched) (t : Txn), byteAt e 0 ∈ txnOpcodes → find d.control.txns (key - 32768) = some t →
    Verdict.andThen (d.entryVerdict key sa e) (d.lateVerdict key d.front.admitNext e f) = none →
    ∃ r : Dev, d.admitEntry key sa e f = r ∧
      find r.control.txns (key - 32768) = some { t with recorded := t.recorded ++ [d.front.admitNext] } ∧
      (∀ k, k ≠ key - 32768 → find r.control.txns k = find d.control.txns k) ∧
      (∃ x, find r.front.flight d.front.admitNext = some x ∧ x.stage = .recorded ∧ x.entry = e ∧ x.payload = f.payload ∧ x.sq = key) ∧
      (∀ k, k ≠ d.front.admitNext → find r.front.flight k = find d.front.flight k) ∧
      r = { d with control := { d.control with txns := r.control.txns }
                   front := { d.front with admitNext := d.front.admitNext + 1, flight := r.front.flight } }) ∧
  (∀ (d : Dev) (client seq : Nat),
    let n := d.control.txnCount + 1
    ∃ r : Dev, d.beginTxn client seq = r.complete seq 0 n ∧ r.control.txnCount = n ∧
      find r.control.txns client = some { client := client, number := n, beginGen := d.control.gen, beganAt := d.now } ∧
      (∀ k, k ≠ client → find r.control.txns k = find d.control.txns k) ∧ r = { d with control := r.control }) ∧
  (∀ (d : Dev) (seq : Nat) (target : Option Nat),
    (target = none → d.decideAbort seq target = d.complete seq 0 3) ∧
    (∀ t f, target = some t → find d.front.flight t = some f → byteAt f.entry 0 ∈ [1, 2, 3] → f.stage ∈ [.waiting, .dispatched, .awaiting] →
      d.decideAbort seq target = (d.endCommand t 0x02 0).complete seq 0 1) ∧
    (∀ t f, target = some t → find d.front.flight t = some f → (byteAt f.entry 0 ∉ [1, 2, 3] ∨ f.stage ∉ [.waiting, .dispatched, .awaiting]) →
      d.decideAbort seq target = d.complete seq 0 2))

/-- Dispatch (R146, R150, R340): a free thread takes no command that overlaps one with a smaller ADMIT_SEQ, takes window work before any queued
command and in the order of its deadline edges, and an URGENT command only out of its queue's budget. -/
def Obligations.DispatchKeepsOverlapAndDeadlineOrder : Prop :=
  (∀ (d : Dev) (seq : Nat) (e : Dev), d.pickCommand = some (seq, e) →
    ∃ f, (seq, f) ∈ d.front.flight ∧ f.stage = .waiting ∧ ∃ r, rangeOf f.entry = some r ∧
      (∀ g ∈ d.front.flight, g.1 < seq → leAt g.2.entry 4 4 = leAt f.entry 4 4 → g.2.stage ≠ .forwarded → g.2.stage ≠ .leaving →
        ∀ x, rangeOf g.2.entry = some x → sharesBlock x r = false) ∧
      (∀ c ∈ d.commits, c.2.1 < seq → c.2.2.1 = leAt f.entry 4 4 → sharesBlock c.2.2.2 r = false) ∧
      (bitOf (byteAt f.entry 1) 2 = true → (∀ x ∈ d.front.sqs, x.2.currentClass < 4) → ∃ q, find d.front.sqs f.sq = some q ∧ 0 < q.urgentLeft ∧
        find e.front.sqs f.sq = some { q with urgentLeft := q.urgentLeft - 1 } ∧ e.front.lastUrgentSq = f.sq)) ∧
  (∀ (s : State) (thread now seq : Nat) (e : Dev), s.dev.power.saving = none → s.dev.threadFree thread = true → s.dev.mayDispatch = true →
    s.dev.startable = [] → s.dev.startableEarly = [] → (s.dev.clock now).pickCommand = some (seq, e) →
    Becomes (.commandDispatch thread now) s (e.dispatch thread seq)) ∧
  (∀ (s : State) (thread now : Nat), s.dev.power.saving = none → (s.dev.startable ≠ [] ∨ s.dev.startableEarly ≠ []) →
    Becomes (.commandDispatch thread now) s (s.dev.clock now)) ∧
  (∀ (s : State) (thread now edge b w : Nat), s.dev.power.saving = none → s.dev.threadFree thread = true → firstKey s.dev.startable = some [edge, b, w] →
    (∀ k ∈ s.dev.startable ++ s.dev.startableEarly, keyBefore (k.take 3) [edge, b, w] = false) →
    Runs (.windowCommitStart thread now) s fun d =>
      (∃ a, find d.chanters.threads thread = some a ∧ a.work = .commit w b) ∧
      (∀ t, t ≠ thread → find d.chanters.threads t = find s.dev.chanters.threads t) ∧
      (∀ v, v ≠ w → find d.memory.windows v = find s.dev.memory.windows v) ∧
      (∀ x, find s.dev.memory.windows w = some x → find d.memory.windows w = some (x.onBreath b fun y => { y with started := true })) ∧
      d = { s.dev with now := now, chanters := d.chanters, memory := { s.dev.memory with windows := d.memory.windows } }) ∧
  (∀ (s : State) (thread edge b w cunit now : Nat) (x : Window), s.dev.power.saving = none → s.dev.threadFree thread = true →
    s.dev.startableEarly.find? (fun k => k.drop 2 == [w, cunit] && !s.dev.startsBefore k) = some [edge, b, w, cunit] →
    find s.dev.memory.windows w = some x →
    Runs (.earlyCunitStart thread w cunit now) s fun d =>
      (∃ a, find d.chanters.threads thread = some a ∧ a.work = .early w b cunit ∧ a.covered = x.cunitMask cunit) ∧
      (∀ t, t ≠ thread → find d.chanters.threads t = find s.dev.chanters.threads t) ∧
      (∀ v, v ≠ w → find d.memory.windows v = find s.dev.memory.windows v) ∧
      d = { s.dev with now := now, chanters := d.chanters, memory := { s.dev.memory with windows := d.memory.windows } })

/-- The integer instructions write gd as R196, R192 and R197 say, as 64-bit arithmetic; g0 keeps its 0, and no other register, window,
store or ticket of the activation, and no other thread, changes. None of them faults. Each R-type word carries its function code, and those of
one source carry gb = 0. -/
def Obligations.IntegerInstructions : Prop :=
  (∀ (s : State) (t d a b imm : Nat) (x : Activation), CanRun s t x → ∀ r ∈ integerRows t d a b imm,
    Writes r.1 s t x d (r.2 (BitVec.ofNat 64 (x.reg a)) (BitVec.ofNat 64 (x.reg b))).toNat (x.pc + 1)) ∧
  (∀ (s : State) (t d a : Nat) (x : Activation), CanRun s t x →
    Writes (.pcnt t d a) s t x d ((List.range 64).filter fun i => (BitVec.ofNat 64 (x.reg a)).getLsbD i).length (x.pc + 1) ∧
    (∃ n, Writes (.ctz t d a) s t x d n (x.pc + 1) ∧ n ≤ 64 ∧ 2 ^ n ∣ x.reg a + (if x.reg a = 0 then 2 ^ 64 else 0) ∧
      (n < 64 → bitOf (x.reg a) n = true)) ∧
    (∃ n, Writes (.clz t d a) s t x d n (x.pc + 1) ∧ n ≤ 64 ∧ x.reg a < 2 ^ (64 - n) ∧ (n < 64 → 2 ^ (63 - n) ≤ x.reg a))) ∧
  (∀ (s : State) (t d q imm : Nat) (x : Activation), CanRun s t x → q < 4 →
    Writes (.liq t d q imm) s t x d
      ((BitVec.ofNat 64 (x.reg d) &&& ~~~(BitVec.ofNat 64 0xFFFF <<< (16 * q))) ||| ((BitVec.ofNat 16 imm).setWidth 64 <<< (16 * q))).toNat
      (x.pc + 1)) ∧
  (∀ (w d a b : Nat) (op : AluOp), Gullot.decode w = some (.alu op d a b) →
    (w % 2048, op) ∈ ([(0x000, .add), (0x001, .sub), (0x002, .and), (0x003, .or), (0x004, .xor), (0x005, .not), (0x006, .sll), (0x007, .srl),
      (0x008, .sra), (0x009, .slt), (0x00A, .sltu), (0x010, .mul), (0x011, .mulhu), (0x012, .divu), (0x013, .remu), (0x018, .pcnt),
      (0x019, .ctz), (0x01A, .clz)] : List (Nat × AluOp)) ∧
    (op ∈ ([.not, .pcnt, .ctz, .clz] : List AluOp) → b = 0))

/-- Loads and stores (R171, R191, R193): a load zero-extends the little-endian bytes its capability address reaches, a store writes the low
bytes of its register there and clears the marks it touches, and an access that breaks a rule faults by its code and changes nothing. -/
def Obligations.LoadsAndStores : Prop :=
  (∀ (s : State) (t d b imm : Nat) (x : Activation) (p : Span), CanRun s t x → ∀ r ∈ loadRows t d b imm,
    Reaches x (x.reg b) imm r.2 Cap.mayRead p → x.inDest p = false → s.dev.unlanded x p = false →
    Writes r.1 s t x d (leNat (s.dev.areaBytes x p.area p.start r.2)) (x.pc + 1)) ∧
  (∀ (s : State) (t v b imm : Nat) (x : Activation) (p : Span), CanRun s t x → ∀ r ∈ storeRows t v b imm,
    Reaches x (x.reg b) imm r.2 Cap.mayWrite p → x.inDest p = false → x.inSource p = false →
    Retires r.1 s t { x.write p.area p.start (leBytes r.2 (x.reg v)) with pc := x.pc + 1, sinsn := x.sinsn + 1 }) ∧
  (∀ (s : State) (t d b imm : Nat) (x : Activation) (p : Span), CanRun s t x → ∀ r ∈ loadRows t d b imm,
    Reaches x (x.reg b) imm r.2 Cap.mayRead p → x.inDest p = true → Idles r.1 s) ∧
  (∀ (s : State) (t d b imm : Nat) (x : Activation), CanRun s t x →
    ∀ r ∈ (loadRows t d b imm).map (fun r => (r.1, r.2, Cap.mayRead)) ++ (storeRows t d b imm).map (fun r => (r.1, r.2, Cap.mayWrite)),
    let base := x.reg b
    let off := signedOf base 48 + signedOf imm 16
    (2 ^ 51 ≤ base → Faults r.1 s t 3) ∧
    (base < 2 ^ 51 → off < 0 → Faults r.1 s t 1) ∧
    (base < 2 ^ 51 → 0 ≤ off → (∀ c, find x.caps (base / 2 ^ 48) = some c → (c.length : Int) < off + r.2.1) → Faults r.1 s t 1) ∧
    (∀ c, base < 2 ^ 51 → 0 ≤ off → find x.caps (base / 2 ^ 48) = some c → off + r.2.1 ≤ c.length →
      (r.2.2 c = false → Faults r.1 s t 2) ∧
      (r.2.2 c = true → ((c.base : Int) + off) % r.2.1 ≠ 0 → Faults r.1 s t 4))) ∧
  (∀ (scratch : Nat) (middle last : Table Cap) (c : Cap), find (commonCaps scratch middle last) 0 = some c → c.mayWrite = false)

/-- Branches, jumps, capability windows and special registers (R198 to R201): targets are counted from the instruction's own index, `jr` past
the code raises ILLEGAL, `mkca` forms an address, and `capn` only narrows. -/
def Obligations.ControlFlowAndCapabilities : Prop :=
  (∀ (s : State) (t a b off : Nat) (x : Activation), CanRun s t x → ∀ r ∈ branchRows t a b off,
    Retires r.1 s t { x with sinsn := x.sinsn + 1
                             pc := if r.2 (BitVec.ofNat 64 (x.reg a)) (BitVec.ofNat 64 (x.reg b)) then jumpTo x.pc off 16 else x.pc + 1 }) ∧
  (∀ (pc off w n : Nat), (pc : Int) + signedOf off w = n → jumpTo pc off w = n) ∧
  (∀ (s : State) (t d off src : Nat) (x : Activation), CanRun s t x →
    Retires (.j t off) s t { x with sinsn := x.sinsn + 1, pc := jumpTo x.pc off 26 } ∧
    Writes (.jal t d off) s t x d ((x.pc + 1) % 2 ^ 64) (jumpTo x.pc off 21) ∧
    (x.reg src < x.codeWords → Retires (.jr t src) s t { x with sinsn := x.sinsn + 1, pc := x.reg src }) ∧
    (x.codeWords ≤ x.reg src → Faults (.jr t src) s t 5)) ∧
  (∀ (s : State) (t d n src : Nat) (x : Activation), CanRun s t x → n < 8 →
    (x.reg src < 2 ^ 48 → Writes (.mkca t d n src) s t x d (n * 2 ^ 48 + x.reg src) (x.pc + 1)) ∧
    (2 ^ 48 ≤ x.reg src → Faults (.mkca t d n src) s t 1)) ∧
  (∀ (s : State) (t cd cs a b mask : Nat) (x : Activation) (c : Cap), CanRun s t x → find x.caps cs = some c →
    (x.reg a + x.reg b ≤ c.length → ∃ (caps : Table Cap) (n : Cap), find caps cd = some n ∧
      (∀ k, k ≠ cd → find caps k = find x.caps k) ∧ n.area = c.area ∧ n.base = c.base + x.reg a ∧ n.length = x.reg b ∧
      n.mayRead = (c.mayRead && bitOf mask 0) ∧ n.mayWrite = (c.mayWrite && bitOf mask 1) ∧
      n.engSrc = (c.engSrc && bitOf mask 2) ∧ n.engDst = (c.engDst && bitOf mask 3) ∧
      Retires (.capn t cd cs a b mask) s t { x with caps := caps, pc := x.pc + 1, sinsn := x.sinsn + 1 }) ∧
    (c.length < x.reg a + x.reg b → Faults (.capn t cd cs a b mask) s t 1)) ∧
  (∀ (s : State) (t d src : Nat) (x : Activation), CanRun s t x →
    Writes (.rds t d src) s t x d (s.dev.special t x src % 2 ^ 64) (x.pc + 1) ∧
    s.dev.special t x 0 = s.dev.grid.breath ∧ s.dev.special t x 1 = x.gen ∧ s.dev.special t x 2 = x.stag ∧ s.dev.special t x 4 = x.sinsn ∧
    (t < 384 → s.dev.special t x 3 = t / 8 + 64 * (t % 8)) ∧
    (∀ k, k < 8 → find x.caps k = none → s.dev.special t x (8 + k) = 0) ∧
    (∀ k c, k < 8 → find x.caps k = some c → c.length < 2 ^ 40 → let v := s.dev.special t x (8 + k)
      bitsOf v 0 40 = c.length ∧ bitOf v 40 = c.mayRead ∧ bitOf v 41 = c.mayWrite ∧ bitOf v 42 = c.engSrc ∧ bitOf v 43 = c.engDst ∧
      bitsOf v 44 4 = c.area.space ∧ v < 2 ^ 48)) ∧
  (∀ (s : State) (t d a b off : Nat) (x : Activation), find s.dev.chanters.threads t = some x → x.awaiting = 0 → x.codeWords ≤ x.pc →
    (∀ r ∈ branchRows t a b off, Faults r.1 s t 5) ∧ Faults (.j t off) s t 5 ∧ Faults (.jal t d off) s t 5 ∧ Faults (.jr t a) s t 5)

/-- Issues (R172, R194, R195, R202 to R211): an engine instruction whose operands pass takes the lowest free ticket, which holds the operand
block and the ranges it reads and writes; a capability operand that breaks a rule faults and no ticket is taken. -/
def Obligations.EngineIssues : Prop :=
  ∀ (s : State) (t gt g : Nat) (x : Activation), CanRun s t x →
    let k (op : EngineOp) (src dst : List Span) (bad : Option (Nat × Nat)) : Ticket :=
      { op := op, a := x.reg g, b := x.reg (g + 1), c := x.reg (g + 2), d := x.reg (g + 3), sources := src, dests := dst, refused := bad }
    let free (src dst : List Span) : Prop := s.dev.issueWaits x (src, dst) = false
    let n := x.reg (g + 3) % 32
    let absent (v : Nat) (l : List Span) (right : Cap → Bool) (len : Nat) : Prop :=
      (v = 0 ∧ l = []) ∨ (v ≠ 0 ∧ ∃ p, x.operand v len right = .ok p ∧ l = [p])
    (∀ p q l, x.operand (x.reg g) (n * 4096) Cap.engSrc = .ok p → absent (x.reg (g + 1)) l Cap.engSrc (n * 16) →
      x.operand (x.reg (g + 2)) (16 + 4112 * n) Cap.engDst = .ok q → free (p :: l) [q] →
      Issues (.zc t gt g) s t gt x (k .zc (p :: l) [q]
        (if 1 ≤ n ∧ n ≤ 16 ∧ x.reg (g + 3) / 32 % 2048 = 0 then none else some (0x11, 3)))) ∧
    (∀ p q l, x.operand (x.reg g) (x.reg (g + 3) / 65536 % 2 ^ 32) Cap.engSrc = .ok p →
      x.operand (x.reg (g + 1)) (n * 4096) Cap.engDst = .ok q → absent (x.reg (g + 2)) l Cap.engDst (n * 16) → free [p] (q :: l) →
      Issues (.zd t gt g) s t gt x (k .zd [p] (q :: l)
        (if 1 ≤ n ∧ n ≤ 16 ∧ x.reg (g + 3) / 32 % 2048 = 0 ∧ x.reg (g + 3) / 65536 % 2 ^ 32 ≠ 0 ∧ x.reg (g + 3) / 2 ^ 48 = 0 then none
          else some (0x11, 3)))) ∧
    (∀ (p q : Span) (decrypt : Bool), x.operand (x.reg g) (x.reg (g + 2)) Cap.engSrc = .ok p →
      x.operand (x.reg (g + 1)) (x.reg (g + 2)) Cap.engDst = .ok q → free [p] [q] → (p = q ∨ p.meets q = false) →
      16 ≤ x.reg (g + 2) → x.reg (g + 2) ≤ 131072 → x.reg (g + 3) < 2 ^ 48 →
      Issues (.xts t gt g decrypt) s t gt x (k (if decrypt then .xtsDecrypt else .xtsEncrypt) [p] [q] none)) ∧
    (∀ q l, x.work.kind = 0 → x.operand (x.reg g) (n * 4096) Cap.engDst = .ok q → absent (x.reg (g + 1)) l Cap.engDst (n * 16) → free [] (q :: l) →
      1 ≤ n → n ≤ 16 → x.reg (g + 3) < 2 ^ 17 → x.reg (g + 3) / 32 % 2048 = 0 →
      Issues (.rdl t gt g) s t gt x (k .rdl [] (q :: l) (if x.opcode = 1 ∧ x.covers (x.reg (g + 2)) n = true then none else some (0x14, 0)))) ∧
    (∀ p l, x.work.kind = 0 → x.operand (x.reg g) (x.reg (g + 3)) Cap.engSrc = .ok p →
      absent (x.reg (g + 1)) l Cap.engSrc (x.reg (g + 3) / 256) → free (p :: l) [] → (x.reg (g + 1) ≠ 0 ↔ x.chkXfer = true) →
      x.reg (g + 2) % 4096 = 0 → x.reg (g + 3) % 4096 = 0 → 4096 ≤ x.reg (g + 3) → x.reg (g + 2) + x.reg (g + 3) ≤ x.range.2 * 4096 →
      Issues (.xout t gt g) s t gt x (k .xout (p :: l) [] (if x.opcode = 1 then none else some (0x14, 0)))) ∧
    (x.work.kind = 0 → free [] [] → s.dev.journalFull = false → s.dev.tailEntries < 2 ^ 20 → 1 ≤ x.reg (g + 1) → x.reg (g + 1) < 2 ^ 32 → x.reg (g + 2) = 0 →
      x.reg (g + 3) = 0 →
      Issues (.unmap t gt g) s t gt x (k .unmap [] []
        (if x.opcode = 3 ∧ x.covers (x.reg g) (x.reg (g + 1)) = true then none else some (0x14, 0)))) ∧
    (∀ q, x.work.kind = 0 → x.operand (x.reg g) 64 Cap.mayWrite = .ok q → free [] [q] → Issues (.mapq t gt g) s t gt x (k .mapq [] [q] none)) ∧
    (∀ p q, x.work.kind = 0 → x.operand (x.reg g) 64 Cap.mayRead = .ok p → x.operand (x.reg (g + 1)) (x.reg (g + 2)) Cap.engDst = .ok q →
      free [p] [q] → Issues (.rdc t gt g) s t gt x (k .rdc [p] [q] none)) ∧
    (∀ c, x.operand (x.reg g) (n * 4096) Cap.engSrc = .error c →
      ∃ e : Dev, e = { s.dev with counters := { s.dev.counters with tags := e.counters.tags } } ∧
        Becomes (.zc t gt g) s (e.faultThread t c).serveAll)

/-- `app` (R174, R206): an append that passes the tests of R206 takes a ticket that holds the cunit's bytes as they were at issue, its catch
point passed; one that fails completes with the status of the first test that fails. -/
def Obligations.AppendIssues : Prop :=
  ∀ (s : State) (t gt g : Nat) (x : Activation) (p : Span), CanRun s t x →
    x.operand (x.reg g) (x.reg (g + 1)) Cap.engSrc = .ok p → s.dev.issueWaits x ([p], []) = false →
    1 ≤ x.reg (g + 3) → x.reg (g + 3) ≤ 16 →
    let k : Ticket :=
      { op := .app, a := x.reg g, b := x.reg (g + 1), c := x.reg (g + 2), d := x.reg (g + 3), sources := [p], dests := [], refused := none }
    let lba := x.reg (g + 2)
    let blocks := x.reg (g + 3)
    let ready := ∃ m ∈ x.marks, m.sealedReady = true ∧ m.span = p ∧ m.lba = lba ∧ m.blocks = blocks
    (¬ ready → x.appendStatus k = 0x14) ∧
    (x.work.kind = 0 → x.opcode ≠ 2 → x.appendStatus k = 0x14) ∧
    (x.covers lba blocks = false → x.appendStatus k = 0x14) ∧
    (ready → (x.work.kind = 0 → x.opcode = 2) → x.covers lba blocks = true →
      x.appendStatus k = if lba + blocks ≤ leAt x.frame 0x28 8 then 0 else 0x12) ∧
    (x.appendStatus k ≠ 0 → Issues (.app t gt g) s t gt x { k with refused := some (x.appendStatus k, 0) }) ∧
    (x.appendStatus k = 0 → s.dev.journalFull = false → s.dev.tailEntries < 2 ^ 20 → s.dev.setBusy x = false →
      (s.dev.reservePages x.nsid lba blocks).1 = true →
      ∃ (d : Dev) (n : Nat) (y : Activation) (z : Ticket), Becomes (.app t gt g) s d ∧ freeKey x.tickets 0 16 = some n ∧
        find d.chanters.threads t = some y ∧ find y.tickets n = some z ∧ z.op = .app ∧ z.refused = none ∧ z.result = none ∧
        z.body = s.dev.areaBytes x p.area p.start p.length ∧ y.pc = x.pc + 1 ∧ y.sinsn = x.sinsn + 1 ∧
        (gt ≠ 0 → y.reg gt = n) ∧ (∀ j, j ≠ gt → y.reg j = x.reg j) ∧
        (∀ q f, x.work = .command q → find s.dev.front.flight q = some f →
          (find d.front.flight q).map InFlight.stage = some .passed))

/-- `wait`, `post`, `halt` and `note` (R173, R210 to R214), and the faults of ILLEGAL, BUDGET and TICKET (R176, R190). -/
def Obligations.WaitPostHaltNote : Prop :=
  (∀ (s : State) (t d g : Nat) (x : Activation) (k : Ticket), CanRun s t x → find x.tickets (x.reg g) = some k →
    (k.result = none → Idles (.wait t d g) s) ∧
    (∀ v, k.result = some v → ∃ r : Table Word,
      (∀ n, ({ x with regs := r } : Activation).reg n = if n = d ∧ d ≠ 0 then v % 2 ^ 64 else x.reg n) ∧
      Retires (.wait t d g) s t { x with tickets := drop x.tickets (x.reg g), regs := r, pc := x.pc + 1, sinsn := x.sinsn + 1 })) ∧
  (∀ (s : State) (t d g : Nat) (x : Activation), CanRun s t x → find x.tickets (x.reg g) = none → Faults (.wait t d g) s t 6) ∧
  (∀ (s : State) (t g now seq : Nat) (x : Activation), CanRun s t x → x.work = .command seq → x.posted = false → x.sealed = false →
    x.pendings = [] → (∀ k ∈ x.tickets, k.2.result.isSome = true) →
    ∃ d : Dev, Becomes (.post t g now) s d ∧ find d.chanters.threads t = some { x with posted := true, pc := x.pc + 1, sinsn := x.sinsn + 1 } ∧
      ∃ e : Dev, e = (({ s.dev with now := now }).complete seq (x.reg g % 256) (x.reg (g + 1))).settle ∧
        d = { e with chanters := d.chanters, counters := d.counters }) ∧
  (∀ (s : State) (t g now : Nat) (x : Activation), CanRun s t x → (x.posted = true ∨ x.work.kind = 2) →
    ∃ e : Dev, e = { s.dev with now := now, counters := { s.dev.counters with tags := e.counters.tags } } ∧
      Becomes (.post t g now) s (e.faultThread t 7)) ∧
  (∀ (s : State) (t now : Nat) (x : Activation), CanRun s t x → x.work.kind ≤ 1 →
    (x.posted = false → ∃ e : Dev, e = { s.dev with now := now, counters := { s.dev.counters with tags := e.counters.tags } } ∧
      Becomes (.halt t now) s (e.faultThread t 8)) ∧
    (x.posted = true → (∀ k ∈ x.tickets, k.2.result.isSome = true) → Runs (.halt t now) s fun d =>
      find d.chanters.threads t = none ∧ (∀ u, u ≠ t → find d.chanters.threads u = find s.dev.chanters.threads u) ∧
      d.front = s.dev.front ∧ d.stripes = s.dev.stripes ∧ d.transport = s.dev.transport)) ∧
  (∀ (s : State) (t g : Nat) (x : Activation), CanRun s t x → x.noted = false →
    (s.dev.chanters.noteSecond = s.dev.now / 1000000000000 → s.dev.chanters.notes < 1000) →
    Runs (.note t g) s fun d =>
      find d.chanters.threads t = some { x with noted := true, pc := x.pc + 1, sinsn := x.sinsn + 1 } ∧ d.chanters.notesDropped = 0 ∧
      NewestEvent s.dev d Cls.control 0x22 x.unit [b4 x.progId, b8 (x.reg g), b4 (x.reg (g + 1)), b4 s.dev.chanters.notesDropped]) ∧
  (∀ (s : State) (t g : Nat) (x : Activation), CanRun s t x → x.noted = false →
    s.dev.chanters.noteSecond = s.dev.now / 1000000000000 → 1000 ≤ s.dev.chanters.notes → Runs (.note t g) s fun d =>
      find d.chanters.threads t = some { x with pc := x.pc + 1, sinsn := x.sinsn + 1 } ∧ d.events = s.dev.events ∧
      d.chanters.notes = s.dev.chanters.notes ∧ d.chanters.notesDropped = min (2 ^ 32 - 1) (s.dev.chanters.notesDropped + 1)) ∧
  (∀ (s : State) (t g : Nat) (x : Activation), CanRun s t x → x.noted = true →
    Runs (.note t g) s fun d => find d.chanters.threads t = some { x with pc := x.pc + 1, sinsn := x.sinsn + 1 } ∧ d.events = s.dev.events) ∧
  (∀ (s : State) (t d a b : Nat) (x : Activation), find s.dev.chanters.threads t = some x → x.awaiting = 0 →
    (x.codeWords ≤ x.pc → Faults (.add t d a b) s t 5) ∧
    (x.pc < x.codeWords → x.limit * 65536 ≤ x.sinsn + 1 → Faults (.add t d a b) s t 9)) ∧
  (∀ (s : State) (t d g : Nat) (x : Activation), find s.dev.chanters.threads t = some x → x.awaiting = 0 → x.work.kind ≠ 0 →
    ∃ e : Dev, e = { s.dev with counters := { s.dev.counters with tags := e.counters.tags } } ∧
      Becomes (.rdl t d g) s (e.faultThread t 5).serveAll)

/-- Completions of engine operations (R173, R194, R202 to R211): a refused operand completes with its status and the operand's position, a
direction whose lanes are all fenced with UNIT_FENCED, and the others with what their rule computes. -/
def Obligations.EngineCompletions : Prop :=
  (∀ (s : State) (t k now : Nat) (a : Activation) (x : Ticket), find s.dev.chanters.threads t = some a → find a.tickets k = some x →
    x.result = none →
    ∀ r ∈ ([(.zcComplete t k now, [.zc]), (.zdComplete t k now, [.zd]), (.xtsComplete t k now, [.xtsEncrypt, .xtsDecrypt]),
      (.appComplete t k now, [.app]), (.rdlComplete t k [] now, [.rdl]), (.xoutComplete t k 0 now, [.xout]),
      (.unmapComplete t k now, [.unmap]), (.mapqComplete t k now, [.mapq]), (.rdcComplete t k now, [.rdc])] :
      List (Instr × List EngineOp)), x.op ∈ r.2 →
    (∀ st i, x.refused = some (st, i) → Becomes r.1 s ((s.dev.clock now).finish t k st 0 i 0 now)) ∧
    (x.refused = none → s.dev.lanesOut x.op = true → Becomes r.1 s ((s.dev.clock now).finish t k 0xFF 0 0 0 now))) ∧
  (∀ (d : Dev) (t k st detail i n now : Nat) (a : Activation) (x : Ticket), find d.chanters.threads t = some a → find a.tickets k = some x →
    ∃ b y, find (d.finish t k st detail i n now).chanters.threads t = some b ∧ find b.tickets k = some y ∧
      y.result = some (st + detail * 2 ^ 8 + i * 2 ^ 16 + n * 2 ^ 32) ∧ y.lane = none ∧ b.regs = a.regs ∧ b.marks = a.marks) ∧
  (∀ (s : State) (t k now n : Nat) (a : Activation) (x : Ticket) (p q : Span), find s.dev.chanters.threads t = some a →
    find a.tickets k = some x → x.result = none → x.refused = none → x.lane = some n → s.dev.lanesOut x.op = false →
    (x.op = .zc → x.b = 0 → x.sources = [p] → x.dests = [q] →
      let text := s.dev.areaBytes a p.area p.start p.length
      let blocks := x.d % 32
      let e := encodeStream (leAt a.frame 0x34 4) (if a.work.kind = 0 then 0 else leAt a.frame 0x48 8) (x.d / 65536) blocks text
        (checkFields text (leAt a.frame 0x30 2) (x.d / 65536) blocks)
      ∃ d : Dev, Becomes (.zcComplete t k now) s (d.finish t k 0 0 0 e.bytes.length now) ∧
        find d.chanters.threads t = some { a.write q.area q.start e.bytes with
          marks := { span := { q with length := e.bytes.length }, lba := x.d / 65536, blocks := blocks, sealedReady := false } ::
            (a.write q.area q.start e.bytes).marks }) ∧
    (x.op = .zd → x.sources = [p] → x.dests = [q] → ∀ data fields,
      decodeStream (s.dev.areaBytes a p.area p.start p.length) (x.d % 32) = some (data, fields) →
      ∃ d : Dev, Becomes (.zdComplete t k now) s (d.finish t k 0 0 0 (x.d % 32 * 4096) now) ∧
        find d.chanters.threads t = some (a.write q.area q.start data)) ∧
    (x.op = .zd → x.sources = [p] → decodeStream (s.dev.areaBytes a p.area p.start p.length) (x.d % 32) = none →
      ∃ d : Dev, Becomes (.zdComplete t k now) s (d.finish t k 0x30 0 0 0 now) ∧
        d.reg 0x70001C = min (2 ^ 32 - 1) (s.dev.reg 0x70001C + 1) ∧ d.chanters = s.dev.chanters) ∧
    (x.op = .xtsEncrypt → x.sources = [p] → x.dests = [q] →
      let key := s.dev.restKey a
      let out := Xts.encrypt key.1 key.2 (leBytes 8 (x.d % 2 ^ 48) ++ leBytes 4 a.nsid ++ zeros 4) (s.dev.areaBytes a p.area p.start p.length)
      ∃ (d : Dev) (b : Activation), Becomes (.xtsComplete t k now) s (d.finish t k 0 0 0 p.length now) ∧
        find d.chanters.threads t = some b ∧
        (∀ i, s.dev.areaBytes b q.area i 1 = s.dev.areaBytes (a.write q.area q.start out) q.area i 1) ∧
        ∀ m, a.marks.find? (fun m => !m.sealedReady && m.span == p && m.lba == x.d) = some m →
          b.marks.head? = some { m with span := q, sealedReady := true })) ∧
  (∀ (s : State) (t k now : Nat) (a : Activation) (x : Ticket) (n : Namespace), find s.dev.chanters.threads t = some a →
    find a.tickets k = some x → x.result = none → x.refused = none → find s.dev.stripes.namespaces a.nsid = some n →
    (x.op = .unmap → ∃ d : Dev, Becomes (.unmapComplete t k now) s (d.finish t k 0 0 0 0 now) ∧
      find d.chanters.threads t = some { a with pendings := a.pendings ++ [.unmap x.a x.b] }) ∧
    (x.op = .app → ∀ r, x.record = some r → (s.dev.standbyReady = true ∨ s.dev.recordWritten r = true) →
      ∃ d : Dev, Becomes (.appComplete t k now) s (d.finish t k 0 0 0 0 now) ∧
        find d.chanters.threads t = some { a with appended := a.appended + x.d }) ∧
    (∀ q, x.op = .mapq → x.dests = [q] → ∃ d : Dev, Becomes (.mapqComplete t k now) s (d.finish t k 0 0 0 64 now) ∧
      find d.chanters.threads t = some (a.write q.area q.start (padTo 64 (Config.mapRecord x.c (x.d % 32))))) ∧
    (∀ p q r, x.op = .rdc → x.sources = [p] → x.dests = [q] →
      find s.dev.stripes.records (Config.cunitOf (s.dev.areaBytes a p.area p.start p.length)) = some r →
      ∃ d : Dev, Becomes (.rdcComplete t k now) s (d.finish t k 0 0 0 (r.body.take q.length).length now) ∧
        find d.chanters.threads t = some (a.write q.area q.start (r.body.take q.length)))) ∧
  (∀ (s : State) (t k now q f : Nat) (a : Activation) (x : Ticket) (c : InFlight), find s.dev.chanters.threads t = some a →
    find a.tickets k = some x → x.result = none → x.refused = none → x.op = .xout → a.work = .command q →
    find s.dev.front.flight q = some c → byteAt a.entry 21 % 8 = 3 →
    (f ≠ 0 → Becomes (.xoutComplete t k f now) s (({ s.dev with now := now, front := { s.dev.front with
      flight := put s.dev.front.flight q { c with payloadFail := f } } }).finish t k 0x16 (f % 256) 0 0 now)) ∧
    (c.origin = none → ∀ p, x.sources = [p] → ∃ d : Dev,
      d = (s.dev.clock now).deliver a.entry a.list x.c (leAt a.entry 36 8 + x.c / 256) (s.dev.areaBytes a p.area p.start p.length) [] ∧
      Becomes (.xoutComplete t k 0 now) s (d.finish t k 0 0 0 x.d now))) ∧
  (∀ (s : State) (t k now : Nat) (a : Activation) (x : Ticket), find s.dev.chanters.threads t = some a → find a.tickets k = some x →
    x.result = none → x.refused = none → x.op = .rdl → (∀ i < x.d % 32, s.dev.resolve a.nsid (x.c + i) = .unwritten) → ∀ p, x.dests = [p] →
    ∃ d : Dev, Becomes (.rdlComplete t k [] now) s (d.finish t k 0 0 0 (x.d % 32 * 4096) now) ∧
      find d.chanters.threads t = some (a.write p.area p.start (zeros (x.d % 32 * 4096))))

/-- Lanes that stop and resume (R231, R234, R247, R248): the operation on a lane is recorded and leaves it, the stop is counted, and a
resume puts the first stopped operation back, a damaged cipher record counted. -/
def Obligations.LanesStopAndResume : Prop :=
  (∀ (s : State) (n t k : Nat) (a : Activation) (x : Ticket), s.dev.onLane n = some (t, k, x) → find s.dev.chanters.threads t = some a →
    find a.tickets k = some x → (∀ z, (t, k, z) ∈ s.dev.running → z = x) →
    (∀ c p, n < 32 → (s.dev.stoppedOn (decide (n < 16))).length < 64 → Runs (.cpeLaneStop n c p) s fun d =>
      (∃ b, find d.chanters.threads t = some b ∧
        find b.tickets k = some { x with lane := none, stopped := true, consumed := c, produced := p } ∧ b = { a with tickets := b.tickets }) ∧
      d.reg 0x700010 = min (2 ^ 32 - 1) (s.dev.reg 0x700010 + 1) ∧ RegsKept s.dev d [0x700010] ∧
      d = { s.dev with chanters := { s.dev.chanters with threads := d.chanters.threads }, regs := d.regs }) ∧
    (∀ c p, n < 32 → 64 ≤ (s.dev.stoppedOn (decide (n < 16))).length → Idles (.cpeLaneStop n c p) s) ∧
    (64 ≤ n → s.dev.cipher.xtsContexts.length < 64 → Runs (.cipLaneStop n t k) s fun d =>
      (∃ b, find d.chanters.threads t = some b ∧ find b.tickets k = some { x with lane := none, stopped := true } ∧
        b = { a with tickets := b.tickets }) ∧
      d.cipher = { s.dev.cipher with
        xtsContexts := { thread := t, ticket := k, seq := s.dev.cipher.contextSeq } :: s.dev.cipher.xtsContexts
        contextSeq := s.dev.cipher.contextSeq + 1 } ∧
      d.reg 0x80001C = min (2 ^ 32 - 1) (s.dev.reg 0x80001C + 1) ∧ RegsKept s.dev d [0x80001C])) ∧
  (∀ (s : State) (n sa pkt : Nat), n < 64 → s.dev.cipher.gcmContexts.length < 64 → Runs (.cipLaneStop n sa pkt) s fun d =>
    d.cipher = { s.dev.cipher with
      gcmContexts := { thread := sa, ticket := pkt, seq := s.dev.cipher.contextSeq } :: s.dev.cipher.gcmContexts
      contextSeq := s.dev.cipher.contextSeq + 1 } ∧
    d.reg 0x80001C = min (2 ^ 32 - 1) (s.dev.reg 0x80001C + 1) ∧ RegsKept s.dev d [0x80001C] ∧
    d = { s.dev with cipher := d.cipher, regs := d.regs }) ∧
  (∀ (s : State) (n t k : Nat) (a : Activation) (x : Ticket), n < 32 → n ∉ s.dev.compression.fenced → s.dev.onLane n = none →
    s.dev.firstServed (s.dev.stoppedOn (decide (n < 16))) = some (t, k, x) → find s.dev.chanters.threads t = some a →
    find a.tickets k = some x → Runs (.cpeLaneResume n) s fun d =>
      find d.chanters.threads t = some { a with tickets := put a.tickets k { x with lane := some n, stopped := false } } ∧
      (∀ u, u ≠ t → find d.chanters.threads u = find s.dev.chanters.threads u) ∧
      d = { s.dev with chanters := { s.dev.chanters with threads := d.chanters.threads } }) ∧
  (∀ (s : State) (n t k seq : Nat) (a : Activation) (x : Ticket), 64 ≤ n → n ∉ s.dev.cipher.fenced → s.dev.onLane n = none →
    s.dev.cipher.xtsContexts = [{ thread := t, ticket := k, seq := seq }] → find s.dev.chanters.threads t = some a →
    find a.tickets k = some x → Runs (.cipLaneResume n t k) s fun d =>
      find d.chanters.threads t = some { a with tickets := put a.tickets k { x with lane := some n, stopped := false } } ∧
      d.cipher = { s.dev.cipher with xtsContexts := [] } ∧
      (∀ y, find s.dev.stripes.namespaces a.nsid = some y →
        d.reg 0x800020 = if s.dev.liveDek y.keyId = true then s.dev.reg 0x800020 else min (2 ^ 32 - 1) (s.dev.reg 0x800020 + 1))) ∧
  (∀ (s : State) (n sa pkt seq : Nat), n < 64 → s.dev.cipher.gcmContexts = [{ thread := sa, ticket := pkt, seq := seq }] →
    Runs (.cipLaneResume n sa pkt) s fun d => d.cipher = { s.dev.cipher with gcmContexts := [] } ∧
      d.reg 0x800020 = if s.dev.saActive sa = true then s.dev.reg 0x800020 else min (2 ^ 32 - 1) (s.dev.reg 0x800020 + 1))

/-- The entropy sources, the DRBG and the mask generators (R249, R250), and the end of a key's destruction (R239): one failed source is
counted and sets its bit; the second stops the DRBG, and a recovery starts it again. -/
def Obligations.RandomnessAndDestroyedKeys : Prop :=
  (∀ (s : State) (n test now : Nat), n < 2 → s.dev.cipher.failing = [] → Runs (.rngFault [n] test now) s fun d =>
    d.cipher = { s.dev.cipher with failing := [n] } ∧ d.events = s.dev.events ∧
    d.reg 0x800014 = min (2 ^ 32 - 1) (s.dev.reg 0x800014 + 1) ∧ RegsKept s.dev d [0x800014]) ∧
  (∀ (s : State) (n test now : Nat), n < 2 → s.dev.cipher.failing = [n] → s.dev.cipher.stopped = false →
    Runs (.rngFault [1 - n] test now) s fun d =>
      d.cipher = { s.dev.cipher with failing := [n, 1 - n], stopped := true, stoppedAt := now, maskStale := true } ∧
      NewestEvent s.dev d Cls.security 0x12 (1 - n) [b1 test, b1 3]) ∧
  (∀ (s : State) (n now : Nat), n ∈ s.dev.cipher.failing →
    (s.dev.cipher.stopped = true → Runs (.rngRecovered n now) s fun d =>
      d.cipher = { s.dev.cipher with
        failing := s.dev.cipher.failing.filter (· != n), stopped := false, maskStale := false, reseeds := s.dev.cipher.reseeds + 1 } ∧
      NewestEvent s.dev d Cls.security 0x13 n [b4 ((now - s.dev.cipher.stoppedAt) / 1000000000)]) ∧
    (s.dev.cipher.stopped = false →
      Becomes (.rngRecovered n now) s { s.dev with
        now := now, cipher := { s.dev.cipher with failing := s.dev.cipher.failing.filter (· != n) } })) ∧
  (∀ (s : State) (lane : Nat), lane < 96 →
    (s.dev.cipher.stopped = false →
      Becomes .drbgReseed s { s.dev with cipher := { s.dev.cipher with reseeds := s.dev.cipher.reseeds + 1 } } ∧
      Becomes (.maskReseed lane) s { s.dev with cipher := { s.dev.cipher with maskReseeds := s.dev.cipher.maskReseeds + 1 } }) ∧
    (s.dev.cipher.stopped = true → Idles .drbgReseed s ∧ Idles (.maskReseed lane) s)) ∧
  (∀ (s : State) (key : Nat) (e : KeyEntry), find s.dev.cipher.keys key = some e → e.life = .destroying → s.dev.control.halted = false →
    (∀ m ∈ s.dev.stripes.namespaces, m.2.keyId = key → s.dev.workOn m.1 e.destroyGen = false) →
    Runs (.keyDestroyed key) s fun d => d.cipher = { s.dev.cipher with keys := drop s.dev.cipher.keys key } ∧
      find d.cipher.keys key = none ∧
      NewestEvent s.dev d Cls.security 0x11 key
        [b1 (flag e.erase), b4 (s.dev.stripes.namespaces.filter fun m => m.2.keyId == key).length]) ∧
  (∀ (s : State) (key : Nat), (∀ e, find s.dev.cipher.keys key = some e → e.life = .live) → Idles (.keyDestroyed key) s)

/-- The lane test mode (R252, R471): it is entered by client 0 alone, with the owner lock clear and no data key LIVE; its operations run
the lanes' ciphers on the test key, and its end zeroises the key. -/
def Obligations.LaneTestMode : Prop :=
  (∀ s : State, s.dev.testing = false →
    (∀ client, client ≠ 0 ∨ s.dev.field 0x40 0 1 = 1 ∨ (∃ k ∈ s.dev.cipher.keys, k.2.type = 2 ∧ k.2.life = .live) →
      Idles (.cipTestEntered client) s) ∧
    (s.dev.field 0x40 0 1 = 0 → (∀ k ∈ s.dev.cipher.keys, k.2.type = 2 → k.2.life ≠ .live) → Runs (.cipTestEntered 0) s fun d =>
      d.testing = true ∧ d.cipher = s.dev.cipher ∧ RegsKept s.dev d [0x80002C, 0x318] ∧
      NewestEvent s.dev d Cls.security 0x14 0 [b1 0]) ∧
    Idles .cipTestExit s ∧
    ∀ client, Idles (.testAesBlockEncrypt client) s ∧ Idles (.testGcmEncrypt client) s ∧ Idles (.testXtsEncrypt client) s ∧
      Idles (.testXtsDecrypt client) s) ∧
  (∀ s : State, s.dev.testing = true →
    Runs .cipTestExit s fun d => d.testing = false ∧ d.cipher = { s.dev.cipher with test := {} } ∧ RegsKept s.dev d [0x80002C]) ∧
  (∀ s : State, s.dev.testing = true →
    let key := padTo 32 s.dev.cipher.test.key
    let len := s.dev.field 0xD08000 0 13
    let aad := s.dev.field 0xD08000 16 13
    let text := s.dev.regBytes 0xD09000 len
    let iv := s.dev.regBytes 0xD08010 16
    let shows (d : Dev) (out : Bytes) (cycles : Nat) : Prop :=
      d.regBytes 0xD0A000 out.length = out ∧ d.field 0xD08000 40 24 = cycles % 2 ^ 24 ∧ d.field 0xD08000 0 13 = len ∧
      d = { s.dev with regs := d.regs }
    (len = 16 → Runs (.testAesBlockEncrypt 0) s fun d => shows d (Aes.encrypt key text) Config.aesCycles) ∧
    (16 ≤ len → len ≤ 4096 → aad ≤ len → Runs (.testGcmEncrypt 0) s fun d =>
      shows d ((Gcm.encrypt key (iv.take 12) (text.take aad) (text.drop aad)).1 ++ (Gcm.encrypt key (iv.take 12) (text.take aad) (text.drop aad)).2)
        ((32 + len + 15) / 16 + 2)) ∧
    (16 ≤ len → len ≤ 4096 → Runs (.testXtsEncrypt 0) s fun d => shows d (Xts.encrypt key (Config.testKey2 key) iv text) ((len + 15) / 16)) ∧
    (16 ≤ len → len ≤ 4096 → Runs (.testXtsDecrypt 0) s fun d => shows d (Xts.decrypt key (Config.testKey2 key) iv text) ((len + 15) / 16)))

/-- Every stream that `zc` makes of whole blocks decodes to the same data and check fields and fits its destination (R219 to R228); the
dictionary coder, whose choice of tokens the spec leaves open, under the hypothesis that its output spells its input. -/
def Obligations.EncodedStreamsDecode : Prop :=
  ∀ (coder origin lba blocks : Nat) (data checks : Bytes), coderOk coder = true → 1 ≤ blocks → blocks ≤ 16 → origin ≤ lba →
    data.length = 4096 * blocks → checks.length = 16 * blocks →
    ((Coder.of coder).method = 1 → dictDecode (4096 * blocks) (Config.dictEncode data) = some data) →
    decodeStream (encodeStream coder origin lba blocks data checks).bytes blocks = some (data, checks) ∧
    (encodeStream coder origin lba blocks data checks).bytes.length ≤ 16 + 4112 * blocks

/-- The counts of a second (R67, R80, R60, R83, R101, R343, R342, R410, R401, R455, R485, R228, R464): where something was counted its
event carries the counts, the count starts again, and where nothing was counted nothing happens. -/
def Obligations.CountsOfASecond : Prop :=
  (∀ (s : State) (sa port bay : Nat),
    let p := s.dev.port port
    let b := s.dev.bay bay
    let fails := ((find s.dev.transport.sas sa).map Sa.authFails).getD 0
    let access (k : Nat) : Nat := (find s.dev.endpoint.secondCounts k).getD 0
    let drops := s.dev.counters.secondDrops
    ∀ r ∈ ([(.replayHorizonShort, flag s.dev.transport.earlyAge.isSome, 8, 0x07, 0, [b4 (s.dev.transport.earlyAge.getD 0)]),
      (.authFail sa, fails, 8, 0x05, sa, [b4 fails]), (.kexReject port, p.secondKex, 8, 0x06, 0, [b4 port, b4 p.secondKex]),
      (.portDropSummary port, p.secondMalformed + p.secondPolice + p.secondFetch, 1, 0x05, port,
        [b4 p.secondMalformed, b4 p.secondPolice, b4 p.secondFetch]),
      (.schSampleDropSummary, s.dev.switch.sampleDrops, 5, 0x44, 0, [b4 s.dev.switch.sampleDrops]),
      (.driveTimeoutSummary bay, b.secondTimeouts, 2, 0x08, bay, [b4 b.secondTimeouts]),
      (.driveBadDma bay, b.secondBadDma, 2, 0x0A, bay, [b8 b.firstBadDma, b4 b.secondBadDma]),
      (.pepAccessSummary, access 0 + access 1 + access 2, 5, 0x83, 0, [b4 (access 0), b4 (access 1), b4 (access 2)]),
      (.cntRecordDropSummary, drops.1 + drops.2, 5, 0x92, 0, [b4 drops.1, b4 drops.2]),
      (.cpeUndecodableSummary, s.dev.compression.secondUndecodable, 5, 0x31, 0, [b4 s.dev.compression.secondUndecodable])] :
      List (Instr × Nat × Nat × Nat × Nat × List Item)),
      (r.2.1 ≠ 0 → Runs r.1 s fun d => NewestEvent s.dev d r.2.2.1 r.2.2.2.1 r.2.2.2.2.1 r.2.2.2.2.2) ∧
      (∀ d, Becomes r.1 s d → RegsKept s.dev d [0x318] ∧ Idles r.1 { s with dev := d }) ∧
      (r.2.1 = 0 → Runs r.1 s fun d => d.events = s.dev.events ∧ d.regs = s.dev.regs)) ∧
  (∀ (s : State) (store n : Nat), find s.dev.protection.corrected store = some n → Runs (.memoryCeSummary store) s fun d =>
    find d.protection.corrected store = none ∧ NewestEvent s.dev d Cls.control 0xA2 store [b4 n] ∧ RegsKept s.dev d [0x318]) ∧
  (∀ (s : State) (kind target off n : Nat), s.dev.switch.cellLoss = some (kind, target, off, n) → Runs .swcCellLost s fun d =>
    d.switch = { s.dev.switch with cellLoss := none } ∧
    NewestEvent s.dev d Cls.control 0x42 0 [b1 kind, b4 target, b8 off, b4 n]) ∧
  (∀ (s : State) (w : Nat) (x : Window), find s.dev.memory.windows w = some x →
    (x.secondLate + x.secondBusy ≠ 0 → Runs (.windowRefuseSummary w) s fun d =>
      (s.dev.hears x.client Cls.queue = true → (d.client x.client).history.head? = some
        { cls := 7, code := 0x25, unit := w % 2 ^ 16, breath := s.dev.breath, data := [b4 x.secondLate, b4 x.secondBusy] }) ∧
      (∀ c, c ≠ x.client → find d.events c = find s.dev.events c) ∧
      find d.memory.windows w = some { x with secondLate := 0, secondBusy := 0 }) ∧
    (x.secondLate + x.secondBusy = 0 → Idles (.windowRefuseSummary w) s)) ∧
  (∀ (s : State) (now cause since : Nat), s.dev.switch.refusing = some (cause, since) →
    (s.dev.field 0x300018 16 16 ≤ s.dev.stagingFree → s.dev.cellsUsed + 16384 < s.dev.field 0x300008 40 20 →
      Runs (.swcInputResumed now) s fun d => d.switch = { s.dev.switch with refusing := none, refused := 0 } ∧
        NewestEvent s.dev d Cls.control 0x41 0 [b8 ((now - since) / 1000000), b4 s.dev.switch.refused]) ∧
    (s.dev.stagingFree < s.dev.field 0x300018 16 16 ∨ s.dev.field 0x300008 40 20 ≤ s.dev.cellsUsed + 16384 →
      Becomes (.swcInputResumed now) s { s.dev with now := now }))

/-- The STATE of a set that is not being reshaped, evaluated (R301 to R304): FAILED stays, a set beyond its losses becomes FAILED with its
namespaces fenced, and otherwise REDUNDANCY decides, each change posting the event of the state entered.

What ends in the background of a set (R261, R264, R295, R308, R310, R311, R323): SET_READY, a deleted namespace, a freed zone, a finished
rebuild, the loss walk, the scrub's pass and the losses of a second. -/
def Obligations.SetStatesAndWork : Prop :=
  (∀ (d : Dev) (n : Nat) (t : StripeSet), find d.stripes.sets n = some t → t.old = none →
     let r := t.layout.redundancy
     let full := t.layout.type.redundancy
     let entered (s : SetState) (was : Bool) (code : Nat) (data : List Item) : Prop :=
       ∃ e, d.judgeSet n = e ∧ find e.stripes.sets n = some { t with state := s, wasReady := was } ∧ OnlyEvents { d with stripes := e.stripes } e ∧
         (∀ m, m ≠ n → find e.stripes.sets m = find d.stripes.sets m) ∧ (code ≠ 0 → NewestEvent d e Cls.set code n data)
     (t.state = .failed → d.judgeSet n = d) ∧
     (t.state = .formatting → t.layout.failed = false → d.judgeSet n = d) ∧
     (t.state ≠ .failed → t.layout.failed = true →
       (find (d.judgeSet n).stripes.sets n).map StripeSet.state = some .failed ∧
       ∀ k x, find d.stripes.namespaces k = some x → x.set = n →
         ∃ y, find (d.judgeSet n).stripes.namespaces k = some y ∧ .setFailed ∈ y.fences) ∧
     (t.layout.failed = false → t.state ≠ .formatting → t.state ≠ .failed →
       (r = full → t.state ≠ .ready → entered .ready true (if t.wasReady = true then 4 else 0) []) ∧
       (r ≠ full → r ≠ 0 → t.layout.minRedundancy ≤ r → t.state ≠ .degraded → entered .degraded t.wasReady 1 [b1 r, b1 t.layout.gaps]) ∧
       (r ≠ full → (r = 0 ∨ r < t.layout.minRedundancy) → t.state ≠ .exposed →
         entered .exposed t.wasReady 2 [b1 r, b1 t.layout.minRedundancy])) ∧
     (t.layout.type = .stripe2p → r = 2 - (t.layout.members.filter fun m => decide (m.2.state ≠ .active)).length ∧
       (t.layout.failed = true ↔ 3 ≤ (t.layout.members.filter fun m => m.2.state = .missing ∨ m.2.state = .failed).length))) ∧
  (∀ (s : State) (n : Nat) (t : StripeSet), find s.dev.stripes.sets n = some t → s.dev.power.saving = none →
     (t.state = .formatting → t.old = none → t.layout.redundancy = t.layout.type.redundancy → Runs (.setReady n) s fun d =>
       find d.stripes.sets n = some { t with state := .ready, wasReady := true } ∧
       NewestEvent s.dev d Cls.set 0x30 n [b4 t.layout.zones, b8 t.layout.stripes]) ∧
     (t.state ≠ .formatting → Idles (.setReady n) s) ∧
     (t.lostThisSecond ≠ 0 → Runs (.stripeLost n) s fun d =>
       find d.stripes.sets n = some { t with lostThisSecond := 0 } ∧ NewestEvent s.dev d Cls.set 0x0A n [b4 t.lostThisSecond]) ∧
     (t.lostThisSecond = 0 → Idles (.stripeLost n) s) ∧
     (s.dev.field (0x901048 + n * 0x80) 0 1 = 1 → Runs (.scrubPassDone n) s fun d =>
       find d.stripes.sets n = some { t with scrubRead := 0, scrubRepaired := 0, scrubLost := 0, scrubQueue := [] } ∧
       NewestEvent s.dev d Cls.set 0x0E n
         [b8 (t.stripes.filter fun x => x.2.life = .written ∨ x.2.life = .committed).length, b4 t.scrubRepaired, b4 t.scrubLost]) ∧
     (∀ m x now, find t.layout.members m = some x → x.state = .rebuilding → t.state ≠ .failed →
       ∃ e, NewestEvent s.dev e Cls.set 0x09 n [b1 m, b1 x.bay, b4 ((now - x.joinedAt) / 1000000000000), b4 x.stripesLost] ∧
         (∃ u, find e.stripes.sets n = some u ∧ find u.layout.members m = some { bay := x.bay } ∧
           ∀ k y, k ≠ m → find t.layout.members k = some y → (y.bay ≠ x.bay ∨ y.lost = true) → find u.layout.members k = some y) ∧
         Becomes (.rebuildDone n m now) s (e.judgeSet n)) ∧
     (∀ z x, find t.zones z = some x → x.state = .pendingFree → x.pages = [] → Runs (.zoneFree n z) s fun d =>
       ∃ u, find d.stripes.sets n = some u ∧ find u.zones z = none ∧ (∀ k, k ≠ z → find u.zones k = find t.zones k) ∧
         (∀ p ∈ u.stripes, p.1 / 1024 ≠ z) ∧ (∀ p ∈ t.stripes, p.1 / 1024 ≠ z → p ∈ u.stripes) ∧
         (∀ p ∈ d.stripes.records, ¬ (p.2.set = n ∧ p.2.stripe / 1024 = z)) ∧
         (∀ p ∈ s.dev.stripes.records, ¬ (p.2.set = n ∧ p.2.stripe / 1024 = z) → p ∈ d.stripes.records)) ∧
     (∀ z x, find t.zones z = some x → (x.state ≠ .pendingFree ∨ x.pages ≠ []) → Idles (.zoneFree n z) s) ∧
     (∀ now, (∃ l ∈ t.losses, l.logical = false) → Runs (.lossWalkDone n now) s fun d =>
       ∃ u, find d.stripes.sets n = some u ∧ ∀ l ∈ u.losses, l.logical = true) ∧
     (∀ now, (∀ l ∈ t.losses, l.logical = true) → Becomes (.lossWalkDone n now) s { s.dev with now := now }) ∧
     (∀ k x, find s.dev.stripes.releasing k = some x → (∀ a ∈ s.dev.chanters.threads, a.2.nsid ≠ k) →
       (∀ f ∈ s.dev.front.flight, leAt f.2.entry 4 4 = k → byteAt f.2.entry 0 = 0 ∨ 3 < byteAt f.2.entry 0) →
       Runs (.nsReleased k) s fun d => find d.stripes.releasing k = none ∧ (∀ y ∈ d.stripes.seals, y.nsid ≠ k) ∧
         NewestEvent s.dev d Cls.set 0x38 k [b8 x.mapped]))

/-- Records and stripes (R266, R267, R268, R284, R293): a record lies whole in one stripe at the stream's fill position; a stripe that closes is
padded and written to every member that is not lost; it is written once the last unit write is durable; and a write that fails loses the member. -/
def Obligations.RecordsFillStripes : Prop :=
  (∀ (d e : Dev) (n k : Nat) (host : Bool) (r : Record) (t : StripeSet), find d.stripes.sets n = some t → t.old = none →
    1 ≤ t.layout.units → r.body.length ≤ 65808 → d.place n host r = some (k, e) →
    ∃ (q : Record) (u : StripeSet) (x : Stripe), find e.stripes.records k = some q ∧
      q = { r with set := n, stripe := q.stripe, offset := q.offset, generation := q.generation } ∧
      find e.stripes.sets n = some u ∧ find u.stripes q.stripe = some x ∧ u.layout = t.layout ∧
      x.used = q.offset + (32 + r.body.length + 15) / 16 * 16 ∧ x.used ≤ t.layout.units * 131072 ∧ x.firstAt.isSome = true) ∧
  (∀ (s : State) (n k now : Nat) (host : Bool) (t : StripeSet) (x : Stripe), s.dev.power.saving = none → find s.dev.stripes.sets n = some t →
    (if host = true then t.hostOpen else t.backOpen) = some k → find t.stripes k = some x → x.firstAt.isSome = true →
    Runs (.stripeCloseMs n host now) s fun d => ∃ u, find d.stripes.sets n = some u ∧
      (if host = true then u.hostOpen else u.backOpen) = none ∧ u.padBytes = (t.padBytes + ((t.layoutOf x.generation).units * 131072 - x.used)) % 2 ^ 64 ∧
      find u.stripes k = some { x with
        life := .closed, closedBreath := s.dev.breath
        unwritten := (t.layoutOf x.generation).members.filterMap fun m => if m.2.lost = true then none else some m.1 } ∧
      (∀ j, j ≠ k → find u.stripes j = find t.stripes j)) ∧
  (∀ (s : State) (bay cid n k i now : Nat) (t : StripeSet) (x : Stripe), cid ∉ (s.dev.bay bay).quarantined →
    (s.dev.bay bay).state ≠ .linkLost → find (s.dev.bay bay).commands cid = some (.unitWrite n k i) → find s.dev.stripes.sets n = some t → find t.stripes k = some x →
    x.life = .closed → t.hostOpen ≠ some k → t.backOpen ≠ some k → (find t.zones (k / 1024)).isSome = true →
    (∀ j l, x.unwritten.erase i = j :: l → Runs (.nvmeWriteCompletion bay cid .success now) s fun d =>
      find (d.bay bay).commands cid = none ∧
      ∃ u, find d.stripes.sets n = some u ∧ find u.stripes k = some { x with unwritten := j :: l }) ∧
    (x.unwritten.erase i = [] → Runs (.nvmeWriteCompletion bay cid .success now) s fun d =>
      ∃ u y, find d.stripes.sets n = some u ∧ find u.stripes k = some y ∧ y.life = (if x.host = true then .written else .committed) ∧
        s.dev.stripes.nextJseq < d.stripes.nextJseq) ∧
    (i ∉ x.retried → Runs (.nvmeWriteCompletion bay cid .integrity now) s fun d =>
      ∃ u, find d.stripes.sets n = some u ∧ find u.stripes k = some { x with
        retried := i :: x.retried
        unwritten := (t.layoutOf x.generation).members.filterMap fun m => if m.2.lost = true then none else some m.1 }) ∧
    (i ∈ x.retried → ∃ e : Dev, e.now = now ∧ find (e.bay bay).commands cid = none ∧ e.stripes = s.dev.stripes ∧
      Becomes (.nvmeWriteCompletion bay cid .integrity now) s (e.faultBay bay 1 .failed))) ∧
  (∀ (s : State) (bay cid n c now : Nat), cid ∉ (s.dev.bay bay).quarantined →
    (s.dev.bay bay).state ≠ .linkLost → find (s.dev.bay bay).commands cid = some (.flush n c) →
    ∃ e : Dev, e.now = now ∧ find (e.bay bay).commands cid = none ∧ e.stripes = s.dev.stripes ∧
      Becomes (.nvmeFlushCompletion bay cid .success now) s e ∧
      ∀ st, st ≠ .success → Becomes (.nvmeFlushCompletion bay cid st now) s (e.faultBay bay 1 .failed)) ∧
  (∀ (s : State) (ns page k now : Nat) (x : Namespace) (e : Dev), s.dev.power.saving = none → find s.dev.stripes.namespaces ns = some x →
    ({ s.dev with now := now }).place x.set false { Record.fresh x.set .mapPage ns page (zeros 4096) with jseq := s.dev.stripes.nextJseq } =
      some (k, e) →
    ((find x.dirty page).isSome = true → Becomes (.pageCkpt ns page now) s e) ∧
    (find x.dirty page = none → Becomes (.pageCkpt ns page now) s { s.dev with now := now })) ∧
  (∀ (s : State) (n z now : Nat) (t : StripeSet) (x : Zone), s.dev.power.saving = none → find s.dev.stripes.sets n = some t → t.owner = s.dev.slot → t.old = none →
    s.dev.collects n t = true → (t.zones.any fun y => decide (y.2.state = .full) && s.dev.hasDead n y.1) = true →
    ({ s.dev with now := now }).victim n { t with collecting := true } = some z → find t.zones z = some x →
    Runs (.collection n now) s fun d => d.stripes.namespaces = s.dev.stripes.namespaces ∧
      ∃ u y, find d.stripes.sets n = some u ∧ u.collecting = true ∧ find u.zones z = some y ∧ (y.state = .cleaning ∨ y.state = .pendingFree))

/-- Map commits (R276, R277): a seal of one append, applied, makes every block of it resolve through an extent of its record; a HOST stripe is
committed only when it is written, all before it are committed and its appends are settled.

Recovery of an owned set (R288, R289): both streams end, appends wait until it is done, and RECOVERY_DONE reports the source, the seals,
the appends discarded and the blocks lost. -/
def Obligations.MapCommitsAndRecovery : Prop :=
  ((∀ (d e : Dev) (x : Seal) (k lba blocks : Nat) (n : Namespace), find d.stripes.namespaces x.nsid = some n →
     x.changes = [.append k lba blocks] → d.applySeal x = some e →
     ∃ m, find e.stripes.namespaces x.nsid = some m ∧
       (∀ i < blocks, ∃ g, find m.granules ((lba + i) / 256) = some g ∧ ∃ y ∈ g.extents, y.record = k ∧ y.first ≤ (lba + i) % 256 ∧
         (lba + i) % 256 < y.first + y.count ∧ y.skip + ((lba + i) % 256 - y.first) = i) ∧
       (∀ g, (∀ i < blocks, (lba + i) / 256 ≠ g) → find m.granules g = find n.granules g) ∧
       (∀ j, j ≠ x.nsid → find e.stripes.namespaces j = find d.stripes.namespaces j)) ∧
   (∀ (s : State) (n k now : Nat) (t : StripeSet) (x : Stripe), s.dev.power.saving = none → find s.dev.stripes.sets n = some t → find t.stripes k = some x →
     (x.host = false ∨ x.life ≠ .written ∨ (∃ y ∈ t.stripes, y.2.host = true ∧ y.2.seq < x.seq ∧ y.2.life ≠ .committed) →
       Becomes (.mapCommit n k now) s { s.dev with now := now }) ∧
     (∀ e, s.dev.mayCommit n k = true →
       (s.dev.stripes.seals.filter fun y => y.set == n && y.stripe == k).foldl (fun d y => d.bind fun d => d.applySeal y)
         (some { s.dev with now := now }) = some e →
       Runs (.mapCommit n k now) s fun d =>
         (∃ u y, find d.stripes.sets n = some u ∧ find u.stripes k = some y ∧ y.life = .committed) ∧
         d.stripes.namespaces = e.stripes.namespaces ∧ (∀ y ∈ d.stripes.seals, ¬ (y.set = n ∧ y.stripe = k)) ∧
         (∀ y ∈ s.dev.stripes.seals, ¬ (y.set = n ∧ y.stripe = k) → y ∈ d.stripes.seals)))) ∧
  (∀ (s : State) (n now : Nat) (t : StripeSet), find s.dev.stripes.sets n = some t → s.dev.power.saving = none →
     (∀ source, (t.owner ≠ s.dev.slot ∨ t.recovering = false) → Becomes (.recovery n source now) s { s.dev with now := now }) ∧
     (∀ source, t.owner = s.dev.slot → t.recovering = true → Runs (.recovery n source now) s fun d => ∃ u, find d.stripes.sets n = some u ∧
       u.recovering = true ∧ u.hostOpen = none ∧ u.backOpen = none ∧ u.recSource = source ∧
       u.recSeals = (s.dev.stripes.seals.filter fun x => x.set == n).length ∧ u.recDiscarded = s.dev.unsealed n ∧
       (source ≠ 2 → u.recLost = 0)) ∧
     (t.recovering = true → (t.recSource = 1 ∨ ∀ x ∈ t.stripes, x.2.life ≠ .closed) → Runs (.recoveryDone n now) s fun d =>
       (∃ u, find d.stripes.sets n = some u ∧ u.recovering = false) ∧ n ∈ d.peer.taken ∧
       (n ∈ s.dev.startUp.claimed → n ∈ d.startUp.recovered) ∧
       NewestEvent s.dev d Cls.set 0x37 n [b1 t.recSource, b4 t.recSeals, b4 t.recDiscarded, b8 t.recLost]) ∧
     ((t.recovering = false ∨ (t.recSource ≠ 1 ∧ ∃ x ∈ t.stripes, x.2.life = .closed)) →
       Becomes (.recoveryDone n now) s { s.dev with now := now }))

/-- Landing and spilling (R327, R330): window packets land first, earliest label first; a landed packet's bytes are those of its region and
no others change; and spilled packets return in queue order without passing the limit. -/
def Obligations.PacketsLandAndReturn : Prop :=
  (∀ (l : List LandingPacket) (p : LandingPacket) (w k : Nat), p ∈ l → p.place = .slot w k →
    ∃ q ∈ l, nextLanding l = some q ∧ (∃ v j, q.place = .slot v j) ∧ q.breath ≤ p.breath) ∧
  (∀ (l : List LandingPacket), (∀ p ∈ l, ∀ w k, p.place ≠ .slot w k) → nextLanding l = l.head?) ∧
  (∀ s : State, Idles (.landing 0) s ∧ (s.dev.switch.landing = [] → ∀ n, Idles (.landing n) s)) ∧
  (∀ (s : State) (p : LandingPacket) (i : Nat) (r : Region), nextLanding s.dev.switch.landing = some p → p.place = .region i → p.ack = none →
    find s.dev.memory.regions i = some r → Runs (.landing 1) s fun d => ∃ m : List Host.Cell,
      find d.memory.regions i = some { r with mem := m } ∧
      (∀ a, readByte m a = if p.offset ≤ a ∧ a < p.offset + p.data.length then p.data.getD (a - p.offset) 0 else readByte r.mem a) ∧
      (∀ j, j ≠ i → find d.memory.regions j = find s.dev.memory.regions j) ∧
      d = { s.dev with
        switch := { s.dev.switch with landing := s.dev.switch.landing.erase p }
        memory := { s.dev.memory with regions := d.memory.regions } }) ∧
  (∀ (s : State) (p : LandingPacket) (q : Nat) (x : Sq) (now : Bool), nextLanding s.dev.switch.landing = some p → p.place = .queue q →
    find s.dev.front.sqs q = some x → p.ack = some now →
    ∃ e : Dev, find e.front.sqs q = some { x with
        waiting := x.waiting ++ (List.range (p.data.length / 64)).map fun i => (p.sa, slice p.data (64 * i) 64) } ∧
      e.switch = { s.dev.switch with landing := s.dev.switch.landing.erase p } ∧ e.transport = s.dev.transport ∧
      Becomes (.landing 1) s (e.admitted p.sa p.msgId now)) ∧
  (∀ (s : State) (k : Nat) (q : EgressQueue), find s.dev.switch.queues k = some q →
    (2 * q.cells < s.dev.queueLimit q → Runs (.spillReturn k) s fun d => ∃ r : EgressQueue, find d.switch.queues k = some r ∧
      r = { q with packets := r.packets } ∧ r.packets.map (fun p => { p with spilled := false }) = q.packets.map (fun p => { p with spilled := false }) ∧
      r.cells ≤ s.dev.queueLimit q ∧ (∀ p t, q.packets = p :: t → p.cells ≤ s.dev.queueLimit q - q.cells →
        ∃ p' t', r.packets = p' :: t' ∧ p'.spilled = false) ∧
      d = { s.dev with switch := { s.dev.switch with queues := d.switch.queues } }) ∧
    (s.dev.queueLimit q ≤ 2 * q.cells → Idles (.spillReturn k) s))

/-- Queue samples (R342): a record of the one sampled queue lies at the ring's index, and a record that the region cannot take is dropped
and counted.

Instruction tagging (R469, R470): the interval has its stated range, the record of a tagged instruction goes into the ring at once, that of
an engine instruction when its ticket ends, and a record that finds no ring is dropped and counted. -/
def Obligations.SampleAndTagRecords : Prop :=
  (∀ (s : State) (now : Nat),
     (s.dev.field 0x400000 0 1 = 0 → Becomes (.schSample now) s { s.dev with now := now }) ∧
     (∀ q i r, s.dev.field 0x400000 0 1 = 1 → s.dev.field 0x400000 1 2 = 0 → s.dev.sampledQueues = [q] →
       s.dev.reg 0x400008 / 256 = i → s.dev.bufferRegion (s.dev.reg 0x400008) = some (i, r) → 32 ≤ r.length →
       s.dev.switch.samplesWritten < 1000000 →
       let n := s.dev.reg 0x40000C
       let base := n % (r.length / 32) * 32
       Runs (.schSample now) s fun d => ∃ m : List Host.Cell, find d.memory.regions i = some { r with mem := m } ∧
         (∀ a, a < base ∨ base + 32 ≤ a → readByte m a = readByte r.mem a) ∧
         (let b := readBytes m base 32
          leAt b 0 4 = s.dev.breath % 2 ^ 32 ∧ leAt b 4 4 = (now - s.dev.grid.lastEdge) / 1000 % 2 ^ 32 ∧ byteAt b 9 = q.service % 256 ∧
          leAt b 10 2 = q.point % 2 ^ 16 ∧ leAt b 12 4 = q.sa % 2 ^ 32 ∧ leAt b 16 4 = q.cells % 2 ^ 32 ∧
          leAt b 20 4 = q.spilledBytes / 1024 % 2 ^ 32 ∧ (q.packets = [] → leAt b 24 4 = 0) ∧
          ((s.dev.node q.node).unlimited = true → leAt b 28 4 = 0x7FFFFFFF)) ∧
         d.reg 0x40000C = (n + 1) % (r.length / 32) ∧ RegsKept s.dev d [0x40000C]) ∧
     (∀ q, s.dev.field 0x400000 0 1 = 1 → s.dev.field 0x400000 1 2 = 0 → s.dev.sampledQueues = [q] → 256 ≤ s.dev.reg 0x400008 →
       s.dev.bufferRegion (s.dev.reg 0x400008) = none → Runs (.schSample now) s fun d =>
         d.reg 0x400010 = min (2 ^ 32 - 1) (s.dev.reg 0x400010 + 1) ∧ RegsKept s.dev d [0x400010] ∧ d.memory = s.dev.memory ∧
         d.switch = { s.dev.switch with sampleDrops := s.dev.switch.sampleDrops + 1 })) ∧
  ((∀ k g, 9 ≤ k → k ≤ 30 → 2 ^ (k - 1) + 2 ^ (k - 9) ≤ tagInterval k g ∧ tagInterval k g ≤ 2 ^ (k - 1) + 255 * 2 ^ (k - 8) + 2 ^ (k - 9)) ∧
   (∀ (s : State) (t pc word delay stall cause fault now prog kind : Nat) (u : TagUnit), find s.dev.counters.tags (t / 8) = some u →
     u.due = some (t, prog, kind) →
     let key := s.dev.reg 0xD00034
     let stalled := min (2 ^ 32 - 1) stall
     let head := leBytes 4 prog ++ leBytes 2 pc ++ leBytes 1 (t / 8) ++ leBytes 1 (t % 8 + 8 * kind) ++ leBytes 4 s.dev.breath ++
       leBytes 4 word ++ leBytes 4 delay ++ leBytes 4 stalled ++ leBytes 1 cause ++ leBytes 1 fault ++ zeros 6
     (∀ i r, s.dev.bufferRegion key = some (i, r) → 32 ≤ r.length → s.dev.counters.tagWritten < 1000000 →
       Runs (.instructionTag t pc word delay stall cause fault now none) s fun d =>
         (∃ y, find d.memory.regions i = some y ∧ readBytes y.mem (s.dev.counters.tagIndex % (r.length / 32) * 32) 32 = head) ∧
         d.counters.tagIndex = (s.dev.counters.tagIndex + 1) % (r.length / 32) ∧ d.regs = s.dev.regs ∧
         (∃ v, find d.counters.tags (t / 8) = some v ∧ v.due = none ∧ v.waiting = none ∧
           ∃ g, v.countdown = tagInterval (s.dev.field 0xD00020 1 5) g)) ∧
     (256 ≤ key → s.dev.bufferRegion key = none → Runs (.instructionTag t pc word delay stall cause fault now none) s fun d =>
         d.reg 0xD0003C = min (2 ^ 32 - 1) (s.dev.reg 0xD0003C + 1) ∧ d.memory = s.dev.memory) ∧
     (∀ k, Runs (.instructionTag t pc word delay stall cause fault now (some k)) s fun d =>
         find d.counters.tags (t / 8) = some { u with due := none, waiting := some (t, k, now, head) } ∧
         d = { s.dev with now := now, counters := { s.dev.counters with tags := d.counters.tags } })) ∧
   (∀ (s : State) (t pc word delay stall cause fault now : Nat) (k : Option Nat),
     (∀ u, find s.dev.counters.tags (t / 8) = some u → u.due = none) →
     Becomes (.instructionTag t pc word delay stall cause fault now k) s { s.dev with now := now }) ∧
   (∀ (d : Dev) (t k status cycles issued i : Nat) (b : Bytes) (u : TagUnit) (r : Region), b.length = 32 →
     find d.counters.tags (t / 8) = some u → u.waiting = some (t, k, issued, b) → d.bufferRegion (d.reg 0xD00034) = some (i, r) →
     32 ≤ r.length → d.counters.tagWritten < 1000000 →
     ∃ y, find (d.tagTicket t k status cycles).memory.regions i = some y ∧
       readBytes y.mem (d.counters.tagIndex % (r.length / 32) * 32) 32 =
         b.take 26 ++ leBytes 1 status ++ (b.drop 27).take 1 ++ leBytes 4 cycles))

/-- The voted Drone and the stewards (R346 to R353): a first dissent fences a core, its re-copy restores it or leaves the pair DEGRADED, and a
second dissent halts the Drone; stewards restart and their violations are counted. -/
def Obligations.DroneCoresVote : Prop :=
  (∀ (s : State) (core cause now : Nat), core < 3 → s.dev.control.halted = false →
    (s.dev.control.coresFenced = [] → Runs (.droneCoreFenced core cause now) s fun d =>
      d.control = { s.dev.control with coresFenced := [core] } ∧ NewestEvent s.dev d Cls.control 0x50 core [b1 cause] ∧
      d = { s.dev with now := now, control := d.control, events := d.events, regs := d.regs, mgmt := d.mgmt }) ∧
    (∀ c, s.dev.control.coresFenced = [c] → c ≠ core → Runs (.droneCoreFenced core cause now) s fun d =>
      d.control = { s.dev.control with halted := true, recopying := false, recopyDue := false } ∧ d.peer.aliveOut = false)) ∧
  (∀ (s : State) (now : Nat), s.dev.control.halted = false → s.dev.control.recopyDue = true → Becomes (.droneRecopy now) s { s.dev with
    now := now, control := { s.dev.control with recopyDue := false, recopying := true, recopyFrom := now } }) ∧
  (∀ (s : State) (now c : Nat), s.dev.control.recopying = true → s.dev.control.coresFenced = [c] →
    (Runs (.droneRecopied now) s fun d => d.control = { s.dev.control with
        coresFenced := [], recopying := false, recopyEnd := now, recopies := min 65535 (s.dev.control.recopies + 1) } ∧
      NewestEvent s.dev d Cls.control 0x51 c [b4 ((now - s.dev.control.recopyFrom) / 1000000)]) ∧
    (Runs (.droneDegraded now) s fun d => d.control = { s.dev.control with recopying := false, recopyEnd := now, degraded := true } ∧
      NewestEvent s.dev d Cls.control 0x52 c [b4 c])) ∧
  (∀ (s : State) (cores c : Nat), s.dev.control.coresFenced = [c] → s.dev.control.halted = false → Runs (.droneHalted cores) s fun d =>
    d.control = { s.dev.control with halted := true, recopying := false, recopyDue := false } ∧ d.peer.aliveOut = false) ∧
  (∀ s : State, s.dev.control.halted = true → (∀ core cause now, Becomes (.droneCoreFenced core cause now) s { s.dev with now := now }) ∧
    ∀ cores, Idles (.droneHalted cores) s) ∧
  (∀ (s : State) (n cause : Nat), n < 8 → s.dev.control.halted = false →
    (n ∉ s.dev.control.stewardsRestarting → Becomes (.stewardRestarted n cause false) s { s.dev with
      control := { s.dev.control with stewardsRestarting := n :: s.dev.control.stewardsRestarting } } ∧
      Idles (.stewardRestarted n cause true) s) ∧
    (n ∈ s.dev.control.stewardsRestarting → Runs (.stewardRestarted n cause true) s fun d =>
      d.control = { s.dev.control with stewardsRestarting := s.dev.control.stewardsRestarting.filter (· != n) } ∧
      NewestEvent s.dev d Cls.control 0x54 n [b1 cause])) ∧
  (∀ (s : State) (n addr kind : Nat), Runs (.stewardViolation n addr kind) s fun d => OnlyEvents { s.dev with regs := d.regs } d ∧
    d.reg 0x1C = min (2 ^ 32 - 1) (s.dev.reg 0x1C + 1) ∧ RegsKept s.dev d [0x1C, 0x318] ∧
    NewestEvent s.dev d Cls.control 0x55 n [if kind = 1 then b4 addr else b8 addr])

/-- Control resets and expired transactions (R357, R360, R361): client 0's key starts a reset that empties the mouthpieces of clients 1 to 3,
freezing long enough starts one too, its end is told to every client, and a transaction of 10 s rolls back. -/
def Obligations.ControlResetsAndExpiries : Prop :=
  (∀ (s : State) (client now value : Nat),
    (client ≠ 0 → Becomes (.controlReset client now value) s { s.dev with now := now }) ∧
    (client = 0 → value % 65536 ≠ 0xC7A5 → Runs (.controlReset client now value) s fun d =>
      NewestEvent s.dev d Cls.control 0xA0 0 [b4 0x14, b1 0, b8 (value % 65536)] ∧ d.control = s.dev.control ∧ d.front = s.dev.front) ∧
    (client = 0 → value % 65536 = 0xC7A5 → s.dev.control.reset = .idle → Runs (.controlReset client now value) s fun d =>
      d.control = { s.dev.control with reset := .draining 0 } ∧
      (∀ c q, c ∈ [1, 2, 3] → find s.dev.front.sqs (32768 + c) = some q →
        find d.front.sqs (32768 + c) = some { q with waiting := [], taken := [], reading := false }) ∧
      (∀ k, k ∉ [32769, 32770, 32771] → find d.front.sqs k = find s.dev.front.sqs k) ∧ d.front.flight = s.dev.front.flight)) ∧
  (∀ (s : State) (now : Nat),
    let after := s.dev.field 0x18 0 16
    (s.dev.control.frozen = true → after ≠ 0 → s.dev.control.frozenAt + after * 1000000000000 ≤ now → s.dev.control.reset = .idle →
      Runs (.autoReset now) s fun d => d.control = { s.dev.control with reset := .draining 1 }) ∧
    ((s.dev.control.frozen = false ∨ after = 0 ∨ now < s.dev.control.frozenAt + after * 1000000000000) →
      Becomes (.autoReset now) s { s.dev with now := now })) ∧
  (∀ (s : State) (now cause n : Nat), s.dev.control.reset = .restarting cause n → Runs (.controlResetDone now) s fun d =>
    d.control = { s.dev.control with reset := .idle, stewardsRestarting := [] } ∧
    (∀ c < 4, (d.client c).history.head? =
      some { cls := 5, code := 0x57, unit := c, breath := s.dev.breath, data := [b1 cause, b4 n] }) ∧ d.front = s.dev.front) ∧
  (∀ (s : State) (client now : Nat) (t : Txn), find s.dev.control.txns client = some t →
    (now < t.beganAt + 10000000000000 → Becomes (.txnExpired client now) s { s.dev with now := now }) ∧
    (t.beganAt + 10000000000000 ≤ now → client < 4 → Runs (.txnExpired client now) s fun d =>
      find d.control.txns client = none ∧ (d.client client).history.head? = some
        { cls := 5, code := 0x56, unit := client, breath := s.dev.breath, data := [b8 t.number, b4 t.recorded.length] } ∧
      d.reg 0x20 = min (2 ^ 32 - 1) (s.dev.reg 0x20 + 1) ∧ ∃ e : Dev, e.front = d.front ∧ e.control = d.control ∧
        e = t.recorded.foldl (fun e q => e.complete q 0x02 0) { s.dev with now := now, control := { s.dev.control with txns := drop s.dev.control.txns client } }))

/-- Measurements, attestation and the owner lock (R366 to R372): each extension chains a digest and is logged while the log has room, GO starts
an operation in the writer's own bank or names its refusal, and only client 0 clears the lock. -/
def Obligations.MeasurementsAndQuotes : Prop :=
  (∀ (d : Dev) (r type detail : Nat) (digest : Bytes),
    let e := d.extend r type detail digest
    e.measured r = digest64 (d.measured r ++ digest) ∧ (∀ q, q ≠ r → e.measured q = d.measured q) ∧
    (d.trust.log.length < 16384 → e.events = d.events ∧
      e.trust.log = { reg := r, type := type, breath := d.breath, detail := detail, digest := digest } :: d.trust.log) ∧
    (16384 ≤ d.trust.log.length → e.trust.log = d.trust.log ∧ e.trust.truncated = true ∧
      (d.trust.truncated = false → NewestEvent d e Cls.security 0x23 0 [b8 d.breath]) ∧ (d.trust.truncated = true → e.events = d.events))) ∧
  (∀ (s : State) (client now value : Nat),
    let v := value % 2
    (s.dev.field 0x40 0 1 ≠ v → (v = 1 ∨ client = 0) → Runs (.ownerLock client now value) s fun d =>
      d.field 0x40 0 1 = v ∧ RegsKept s.dev d [0x40, 0x318] ∧ (∀ r, r ≠ 9 → d.measured r = s.dev.measured r) ∧
      d.measured 9 = digest64 (s.dev.measured 9 ++ digest64 (leBytes 4 v ++ leBytes 4 client ++ leBytes 8 s.dev.breath)) ∧
      NewestEvent s.dev d Cls.security 0x22 client [b1 v, b1 client]) ∧
    ((s.dev.field 0x40 0 1 = v ∨ (v = 0 ∧ client ≠ 0)) → Becomes (.ownerLock client now value) s { s.dev with now := now })) ∧
  (∀ (s : State) (c now : Nat), c < 4 →
    ∀ op i, (op, i) ∈ ([(0, .attestQuote c c now), (1, .attestCertificates c c now), (2, .attestLog c c now)] : List (Nat × Instr)) →
      ((s.dev.bank c).state = 1 → Runs i s fun d => d.bank c = { s.dev.bank c with reason := 1 } ∧
        (∀ b, b ≠ c → d.bank b = s.dev.bank b) ∧ NewestEventTo s.dev d c Cls.security 0x20 c [b1 op, b1 3, b1 1, b4 0]) ∧
      ((s.dev.bank c).state ≠ 1 → s.dev.control.halted = true → Runs i s fun d =>
        d.bank c = { s.dev.bank c with state := 3, reason := 4, length := 0 } ∧
        NewestEventTo s.dev d c Cls.security 0x20 c [b1 op, b1 3, b1 4, b4 0]) ∧
      ((s.dev.bank c).state ≠ 1 → s.dev.control.halted = false → op = 0 → s.dev.trust.akPending = true → Runs i s fun d =>
        d.bank c = { s.dev.bank c with state := 3, reason := 3, length := 0 } ∧
        NewestEventTo s.dev d c Cls.security 0x20 c [b1 op, b1 3, b1 3, b4 0]) ∧
      ((s.dev.bank c).state ≠ 1 → s.dev.control.halted = false → (op ≠ 0 ∨ s.dev.trust.akPending = false) → Runs i s fun d =>
        d = { s.dev with now := now, trust := { s.dev.trust with banks := d.trust.banks } } ∧ (∀ b, b ≠ c → d.bank b = s.dev.bank b) ∧
        let base := 0x100 + c * 0x40
        d.bank c = { state := 1, op := op, dest := s.dev.reg (base + 0x20), offset := s.dev.reg (base + 0x28)
                     nonce := ([0, 8, 16, 24].map fun o => leBytes 8 (s.dev.reg (base + o))).flatten })) ∧
  (∀ (s : State) (w c now : Nat), w ≠ c → (∀ i ∈ ([.attestQuote w c now, .attestCertificates w c now, .attestLog w c now] : List Instr),
    Becomes i s { s.dev with now := now })) ∧
  (∀ (s : State) (c : Nat), c < 4 → (s.dev.bank c).state = 1 →
    let x := s.dev.bank c
    let out := s.dev.attested x.op x.nonce
    (s.dev.control.halted = true → Runs (.attestDone c) s fun d => d.memory = s.dev.memory ∧
      d.bank c = { x with state := 3, reason := 4, length := 0 } ∧ NewestEventTo s.dev d c Cls.security 0x20 c [b1 x.op, b1 3, b1 4, b4 0]) ∧
    (∀ i r, s.dev.control.halted = false → s.dev.bufferRegion x.dest = some (i, r) → x.offset + out.length ≤ r.length →
      Runs (.attestDone c) s fun d => (∃ m : List Host.Cell, find d.memory.regions i = some { r with mem := m } ∧
          ∀ a, readByte m a = if x.offset ≤ a ∧ a < x.offset + out.length then out.getD (a - x.offset) 0 else readByte r.mem a) ∧
        (∀ j, j ≠ i → find d.memory.regions j = find s.dev.memory.regions j) ∧
        d.bank c = { x with state := 2, reason := 0, length := out.length } ∧
        NewestEventTo s.dev d c Cls.security 0x20 c [b1 x.op, b1 2, b1 0, b4 out.length]) ∧
    (s.dev.control.halted = false →
      (s.dev.bufferRegion x.dest = none ∨ ∃ i r, s.dev.bufferRegion x.dest = some (i, r) ∧ r.length < x.offset + out.length) →
      Runs (.attestDone c) s fun d => d.memory = s.dev.memory ∧ d.bank c = { x with state := 3, reason := 2, length := 0 } ∧
        NewestEventTo s.dev d c Cls.security 0x20 c [b1 x.op, b1 3, b1 2, b4 0])) ∧
  (∀ (d : Dev) (nonce : Bytes), nonce.length = 32 → (∀ r < 10, (d.measured r).length = 64) →
    let b := d.quoteBody nonce
    b.length = 768 ∧ leAt b 0 4 = 0x44515431 ∧ slice b 16 32 = nonce ∧ leAt b 48 8 = d.breath % 2 ^ 64 ∧ leAt b 56 8 = d.control.gen % 2 ^ 64 ∧
    leAt b 64 8 = d.trust.bootCount % 2 ^ 64 ∧ leAt b 76 4 = d.trust.log.length % 2 ^ 32 ∧ ∀ r < 10, slice b (128 + 64 * r) 64 = d.measured r) ∧
  (∀ s : State, (s.dev.trust.akPending = false → Idles .akCertified s) ∧
    (s.dev.trust.akPending = true → Runs .akCertified s fun d => d.trust = { s.dev.trust with akPending := false } ∧
      NewestEvent s.dev d Cls.security 0x21 0 [b8 (leAt (s.dev.measured 1) 0 8)]))

/-- Firmware (R373 to R379): the loader starts a good slot or asks the partner for its copy, an activation that ends puts the staged manifest in
force and never lowers SVN_MIN, and staged parts become READY once the partner holds the recovery copy. -/
def Obligations.FirmwareIsMeasuredAndKept : Prop :=
  (∀ (s : State) (now : Nat),
    (s.dev.trust.stage ≠ .activating → Becomes (.fwActivated now) s { s.dev with now := now }) ∧
    (s.dev.trust.stage = .activating → Runs (.fwActivated now) s fun d =>
      let m := s.dev.trust.manifest
      d.trust.running = m ∧ d.trust.svnMin = max s.dev.trust.svnMin (leAt m 16 4) ∧ d.trust.stage = .empty ∧ d.trust.manifest = [] ∧
      d.trust.chunks = [] ∧ d.trust.verified = [] ∧ d.measured 1 = digest64 (s.dev.measured 1 ++ partDigest m 1) ∧
      (∀ r, r ≠ 1 → d.measured r = s.dev.measured r) ∧ NewestEvent s.dev d Cls.control 0x61 0
        [b4 s.dev.trust.oldVersion, b4 (leAt m 8 4), b4 ((now - s.dev.trust.activatedAt) / 1000000000)])) ∧
  (∀ s : State,
    (s.dev.trust.stage ≠ .activating → ∀ ok, Idles (.fwSlotWriteDone ok) s) ∧
    (s.dev.trust.stage = .activating →
      (Becomes (.fwSlotWriteDone true) s { s.dev with trust := { s.dev.trust with slotIncomplete := false, slotTries := 0 } }) ∧
      Runs (.fwSlotWriteDone false) s fun d => d.trust = { s.dev.trust with slotIncomplete := true, slotTries := 3 } ∧
        NewestEvent s.dev d Cls.control 0x62 0 [b4 3]) ∧
    (s.dev.trust.slotIncomplete = false → ∀ ok, Idles (.fwSlotRetry ok) s) ∧
    (s.dev.trust.slotIncomplete = true →
      (Becomes (.fwSlotRetry true) s { s.dev with trust := { s.dev.trust with slotIncomplete := false, slotTries := 0 } }) ∧
      Runs (.fwSlotRetry false) s fun d => d.trust = { s.dev.trust with slotTries := s.dev.trust.slotTries + 1 } ∧
        NewestEvent s.dev d Cls.control 0x62 0 [b4 (s.dev.trust.slotTries + 1)]) ∧
    (s.dev.trust.stage = .manifest → s.dev.trust.verifiedMap = 63 → s.dev.standbyReady = true → Runs .recoveryCopyDone s fun d =>
      d.trust = { s.dev.trust with partnerCopy := true, stage := .ready } ∧ NewestEvent s.dev d Cls.control 0x60 0 [b1 2, b1 63]) ∧
    Becomes .fwCopyRequest s { s.dev with out := .peer (.firmware s.dev.trust.partnerManifest.isEmpty) :: s.dev.out }) ∧
  (∀ (s : State) (good : Bool) (m : Bytes),
    ((s.dev.startUp.phase ≠ 2 ∨ s.dev.startUp.fail ≠ 0) → Idles (.loaderSlotCheck good m) s) ∧
    (s.dev.startUp.phase = 2 → s.dev.startUp.fail = 0 →
      (good = true → s.dev.trust.slotIncomplete = false → s.dev.trust.svnMin ≤ leAt m 12 4 → Runs (.loaderSlotCheck good m) s fun d =>
        d.startUp.phase = 3 ∧ d.trust.running = m ∧ d.trust.bootCount = s.dev.trust.bootCount + 1 ∧
        (∀ k ∈ [1, 2, 3, 4, 5, 6], d.measured k = digest64 (s.dev.measured k ++ partDigest m k)) ∧ d.measured 7 = s.dev.measured 7 ∧
        d.measured 8 = digest64 (s.dev.measured 8 ++ digest64 (slice m 0 64))) ∧
      ((good = false ∨ s.dev.trust.slotIncomplete = true ∨ leAt m 12 4 < s.dev.trust.svnMin) → Becomes (.loaderSlotCheck good m) s
        { s.dev with startUp := { s.dev.startUp with fail := 3 }, out := .peer .copyRequest :: s.dev.out })) ∧
    (s.dev.startUp.fail = 3 → Becomes .loaderPlRetry s { s.dev with out := .peer .copyRequest :: s.dev.out }) ∧
    (s.dev.startUp.fail ≠ 3 → Idles .loaderPlRetry s) ∧
    (∀ source, ((s.dev.startUp.fail ≠ 3 ∨ s.dev.manifestOk m = false) → Idles (.fwRecovered source m) s) ∧
      (s.dev.startUp.fail = 3 → s.dev.manifestOk m = true → Runs (.fwRecovered source m) s fun d =>
        d.startUp.phase = 3 ∧ d.startUp.fail = 0 ∧ d.trust.running = m ∧ d.trust.slotIncomplete = false ∧
        NewestEvent s.dev d Cls.control 0x63 0 [b1 source]))) ∧
  (∀ (r : Rec) (d : Dev), commitFwActivate r d = none → d.trust.stage = .ready ∧ (∀ w ∈ d.memory.windows, w.2.mode ≠ .armed) ∧
    d.field 0x40 0 1 ≠ 1 ∧ (∀ t ∈ d.stripes.sets, t.2.state ≠ .exposed ∧ t.2.redundancy ≠ 0) ∧ d.standbyReady = true ∧
    d.trust.svnMin ≤ leAt d.trust.manifest 12 4)

/-- The peer link (R381 to R386): link-up brings the certificates out, a failed key step leaves the partner ABSENT, heartbeats carry this module's
state and are taken only when fresh and verified, and a released alive line closes the gate where the partner stood by. -/
def Obligations.PeerLinkAndHeartbeats : Prop :=
  (∀ (s : State) (now : Nat),
    let p := s.dev.peer
    (p.linkUp = false → Becomes (.plLinkUp now) s
      { s.dev with now := now, peer := { p with linkUp := true }, out := .peer .certificates :: s.dev.out }) ∧
    (p.linkUp = true → Becomes (.plLinkUp now) s { s.dev with now := now }) ∧
    (p.linkUp = true → Runs (.plLinkDown now) s fun d => d.peer = { p with linkUp := false, pairKey := none, state := .absent } ∧
      d.memory.plCopies = [] ∧ (∀ q ∈ d.switch.queues, q.2.point ≠ 260 ∨ s.dev.memory.plCopies ≠ []) ∧
      NewestEvent s.dev d Cls.control 0x70 0 [b1 1]) ∧
    (p.linkUp = false → Becomes (.plLinkDown now) s { s.dev with now := now }) ∧
    (p.linkUp = true → p.pairKey = none → Becomes (.pairKeyRetry now) s
      { s.dev with now := now, out := .peer .certificates :: s.dev.out }) ∧
    ((p.linkUp = false ∨ p.pairKey ≠ none) → Becomes (.pairKeyRetry now) s { s.dev with now := now })) ∧
  (∀ (s : State) (step : Nat) (key : Bytes) (version peerMin now : Nat),
    let p := s.dev.peer
    (p.linkUp = false → Becomes (.pairKeyExchange step key version peerMin now) s { s.dev with now := now }) ∧
    (p.linkUp = true → step ≠ 0 → Runs (.pairKeyExchange step key version peerMin now) s fun d =>
      d.peer = { p with pairKey := none, state := .absent } ∧ NewestEvent s.dev d Cls.security 0x30 0 [b1 step]) ∧
    (p.linkUp = true → step = 0 → Runs (.pairKeyExchange step key version peerMin now) s fun d =>
      d.peer = { p with
        pairKey := some key, selfReady := false, resyncFrom := now, resyncTries := 0
        state := if leAt s.dev.trust.running 20 4 ≤ version ∧ peerMin ≤ leAt s.dev.trust.running 8 4 then .syncing else .absent } ∧
      d = { s.dev with now := now, peer := d.peer, out := d.out } ∧ (s.dev.startUp.phase ≠ 4 → d.out = s.dev.out)) ∧
    (p.pairKey = none → Idles (.pairKeyRekey key) s) ∧
    (p.pairKey ≠ none → Becomes (.pairKeyRekey key) s { s.dev with peer := { p with pairKey := some key } })) ∧
  (∀ (s : State) (now : Nat),
    let p := s.dev.peer
    ((s.dev.control.halted = true ∨ s.dev.power.saving ≠ none ∨ s.dev.startUp.phase < 3) → Becomes (.heartbeatSend now) s { s.dev with now := now }) ∧
    (s.dev.control.halted = false → s.dev.power.saving = none → 3 ≤ s.dev.startUp.phase → ∃ h : Heartbeat,
      h.seq = p.seq + 1 ∧ h.slot = s.dev.slot ∧ h.ready = p.selfReady ∧ (h.updating = true ↔ s.dev.trust.stage = .activating) ∧
      h.degraded = s.dev.control.degraded ∧ h.owned = s.dev.owned ∧ h.breath = s.dev.breath ∧ h.edgePs = s.dev.grid.lastEdge ∧
      h.ckptJseq = s.dev.stripes.checkpointJseq ∧ h.configGen = s.dev.control.gen ∧ h.version = leAt s.dev.trust.running 8 4 ∧
      Becomes (.heartbeatSend now) s { s.dev with
        now := now, peer := { p with aliveOut := true, seq := p.seq + 1, ownerOut := s.dev.owned != 0 }
        out := if p.linkUp = true ∧ p.pairKey ≠ none then .peer (.heartbeat h) :: s.dev.out else s.dev.out }) ∧
    (Becomes (.aliveRelease now) s { s.dev with
        now := now, peer := { p with aliveOut := false, ownerOut := false, gateClosed := p.gateClosed || p.last.any Heartbeat.ready } }) ∧
    ∀ a o, Becomes (.partnerLineChange a o) s { s.dev with peer := { p with aliveIn := a, ownerIn := o } }) ∧
  (∀ (s : State) (h : Heartbeat) (verified : Bool) (now : Nat),
    let p := s.dev.peer
    let fresh := ∀ l, p.last = some l → l.seq < h.seq
    (verified = true → p.linkUp = true → p.pairKey ≠ none → h.slot ≠ s.dev.slot → fresh → Runs (.heartbeatRx h verified now) s fun d =>
      d.peer = { p with last := some h, lastAt := now } ∧
      d = { s.dev with now := now, peer := d.peer, grid := d.grid, events := d.events, regs := d.regs, mgmt := d.mgmt }) ∧
    ((verified = false ∨ p.linkUp = false ∨ p.pairKey = none ∨ h.slot = s.dev.slot ∨ ¬fresh) →
      Becomes (.heartbeatRx h verified now) s { s.dev with now := now }))

/-- Failure and take-over (R387 to R390): the partner's lines and the last heartbeat decide between a lost link, a failed partner whose sets are
taken and one whose sets are not; the take-over ends when every set has been recovered and no activation runs. -/
def Obligations.PartnerFailureAndTakeOver : Prop :=
  (∀ (s : State) (now : Nat), s.dev.power.saving = none →
    let p := s.dev.peer
    (p.last = none → Becomes (.partnerFailed now) s { s.dev with now := now }) ∧
    (∀ h, p.last = some h →
      ((p.state = .failed ∨ now < p.lastAt + 5000000000 ∨ (p.aliveIn = false ∧ p.ownerIn = true)) →
        Becomes (.partnerFailed now) s { s.dev with now := now }) ∧
      (p.state ≠ .failed → p.lastAt + 5000000000 ≤ now → p.aliveIn = true → Runs (.partnerFailed now) s fun d =>
        d.peer.state = .absent ∧ d.peer.selfReady = false ∧ d.peer.last = none ∧ d.stripes = s.dev.stripes ∧
        (∀ q f, find d.front.flight q = some f → f.stage ≠ .forwarded ∧ f.stage ≠ .leaving)) ∧
      (p.state ≠ .failed → p.lastAt + 5000000000 ≤ now → p.aliveIn = false → p.ownerIn = false → (h.ready = false ∨ p.selfReady = false) →
        Runs (.partnerFailed now) s fun d => d.peer.state = .absent ∧ d.peer.selfReady = false ∧ d.stripes = s.dev.stripes ∧
          (s.dev.front.flight = [] → s.dev.memory.plCopies = [] →
            NewestEvent s.dev d Cls.control 0x71 0 [b1 0, b4 (setMap (p.sets.map Prod.fst))])) ∧
      (p.state ≠ .failed → p.lastAt + 5000000000 ≤ now → p.aliveIn = false → p.ownerIn = false → h.ready = true → p.selfReady = true →
        Runs (.partnerFailed now) s fun d => d.peer.state = .failed ∧ d.peer.taking = p.sets.map Prod.fst ∧ d.peer.taken = [] ∧
          d.peer.takeFrom = p.lastAt ∧ d.peer.sets = [] ∧ (∀ n x, (n, x) ∈ p.sets → ∃ t, find d.stripes.sets n = some t ∧ t.owner = s.dev.slot) ∧
          (∀ a x, find s.dev.transport.sas a = some x → find d.transport.sas a = some x) ∧
          (∀ a ∈ p.installed.sas, (find d.transport.sas a.1).isSome = true) ∧
          NewestEvent s.dev d Cls.control 0x71 0 [b1 1, b4 (setMap (p.sets.map Prod.fst))]))) ∧
  (∀ (s : State) (now : Nat), s.dev.power.saving = none →
    let p := s.dev.peer
    ((p.state ≠ .failed ∨ (∃ n ∈ p.taking, n ∉ p.taken) ∨ s.dev.trust.stage = .activating) →
      Becomes (.takeoverDone now) s { s.dev with now := now }) ∧
    (p.state = .failed → (∀ n ∈ p.taking, n ∈ p.taken) → s.dev.trust.stage ≠ .activating → Runs (.takeoverDone now) s fun d =>
      d.peer.state = .absent ∧ d.peer.taking = [] ∧ d.peer.slots = [] ∧ d.peer.lastGapUs = (now - p.takeFrom) / 1000000 ∧
      NewestEvent s.dev d Cls.control 0x72 0
        [b4 (setMap p.taking), b4 ((now - p.takeFrom) / 1000000), b4 d.peer.takeAborted, b4 d.peer.takeRerun]))

/-- Mirroring, forwarded commands, resynchronisation and return (R155, R333, R390 to R396): what a partner copies is held, a forwarded command is
taken under this module's ADMIT_SEQ, a set handed over is owned and recovered here, and loop packets follow their shelf's route. -/
def Obligations.MirrorsResyncAndReturn : Prop :=
  (∀ s : State, s.dev.power.saving = none →
    (∀ r, Becomes (.mirrorAppendRx (.response r)) s { s.dev with
      peer := { s.dev.peer with theirs := s.dev.peer.theirs ++ [r] }, out := .peer (.acknowledge 1) :: s.dev.out }) ∧
    (∀ sa m, Becomes (.mirrorAppendRx (.responded sa m)) s { s.dev with
      peer := { s.dev.peer with theirs := s.dev.peer.theirs.filter fun r => ¬(r.sa = sa ∧ r.msgId = m) }
      out := .peer (.acknowledge 1) :: s.dev.out }) ∧
    (∀ n x, x.set.owner ≠ s.dev.slot → find s.dev.stripes.sets n = none → Runs (.mirrorAppendRx (.set n x)) s fun d =>
      find d.peer.sets n = some x ∧ (∀ k, k ≠ n → find d.peer.sets k = find s.dev.peer.sets k) ∧ d.stripes = s.dev.stripes ∧
      d.out = .peer (.acknowledge 1) :: s.dev.out) ∧
    (∀ x, (∀ h ∈ x.handbacks, (find s.dev.peer.sets h.1).isNone = true) → Becomes (.standbyCopyRx x) s { s.dev with
      peer := { s.dev.peer with installed := x }, out := .peer (.acknowledge 2) :: s.dev.out })) ∧
  (∀ (s : State) (now : Nat),
    let p := s.dev.peer
    (p.state = .syncing → s.dev.serving = true → Runs (.resync now) s fun d =>
      d.peer = { p with resyncFrom := now } ∧ d = { s.dev with now := now, peer := d.peer, out := d.out } ∧
      .peer (.installed s.dev.installed) ∈ d.out ∧
      ∀ n x, s.dev.setImage n = some x → (find s.dev.stripes.sets n).isSome = true → .peer (.mirror (.set n x)) ∈ d.out) ∧
    ((p.state ≠ .syncing ∨ s.dev.serving = false) → Becomes (.resync now) s { s.dev with now := now }) ∧
    (p.state = .syncing → p.resyncFrom + 60000000000000 ≤ now → Runs (.resyncRetry now) s fun d =>
      d.peer = { p with resyncTries := p.resyncTries + 1, resyncFrom := now } ∧ .peer (.installed s.dev.installed) ∈ d.out ∧
      NewestEvent s.dev d Cls.control 0x75 0 [b4 (p.resyncTries + 1)]) ∧
    ((p.state ≠ .syncing ∨ now < p.resyncFrom + 60000000000000) → Becomes (.resyncRetry now) s { s.dev with now := now }) ∧
    (p.state = .syncing → Runs (.partnerStandbyReady now) s fun d =>
      d.peer = { p with state := .standbyReady, selfReady := true, resyncTries := 0, returnDue := true } ∧
      NewestEvent s.dev d Cls.control 0x73 0 [b4 ((now - p.resyncFrom) / 1000000000)] ∧
      (s.dev.trust.stage ≠ .empty → .peer (.recoveryCopy 0) ∈ d.out ∧ ∀ k ∈ s.dev.trust.verified, .peer (.recoveryCopy k) ∈ d.out)) ∧
    (p.state ≠ .syncing → Becomes (.partnerStandbyReady now) s { s.dev with now := now })) ∧
  (∀ (s : State) (origin now nsid : Nat) (e payload : Bytes) (n : Namespace), s.dev.peer.linkUp = true → e.length = 64 → byteAt e 0 ≠ 8 →
    leAt e 4 4 = nsid → find s.dev.stripes.namespaces nsid = some n →
    (find s.dev.front.sqs 40000).isSome = true →
    ((s.dev.serving = false ∨ n.fences ≠ []) → Runs (.forwardedCommand origin e payload now) s fun d =>
      d.front = { s.dev.front with admitNext := s.dev.front.admitNext + 1, flight := drop s.dev.front.flight s.dev.front.admitNext } ∧
      ∃ q, d.out = .peer (.forwardedDone origin q (if s.dev.serving = false then 0x15 else Status.namespaceFenced) 0) :: s.dev.out) ∧
    (s.dev.serving = true → n.fences = [] → 1 ≤ byteAt e 0 → byteAt e 0 ≤ 3 → leAt e 16 4 ≠ 0 →
      Runs (.forwardedCommand origin e payload now) s fun d => d.front.admitNext = s.dev.front.admitNext + 1 ∧
        (∃ f : InFlight, find d.front.flight s.dev.front.admitNext = some f ∧ f.entry = e ∧ f.payload = payload ∧ f.origin = some origin ∧
          f.stage = .waiting) ∧
        ∀ k, k ≠ s.dev.front.admitNext → find d.front.flight k = find s.dev.front.flight k)) ∧
  (∀ (s : State) (seq q status result now : Nat) (list : List (Nat × Nat)) (data checks : Bytes),
    (∀ f, find s.dev.front.flight seq = some f → f.stage ≠ .forwarded) →
      Becomes (.forwardedCompletion seq q status result list data checks now) s { s.dev with now := now }) ∧
  (∀ (s : State) (seq q status result now : Nat) (f : InFlight), find s.dev.front.flight seq = some f → f.stage = .forwarded →
    s.dev.peer.handbacks = [] → Runs (.forwardedCompletion seq q status result [] [] [] now) s fun d => find d.front.flight seq = none) ∧
  (∀ (s : State) (set jseq now : Nat), s.dev.power.saving = none →
    (∀ h x, find s.dev.peer.handbacks set = some h → find s.dev.peer.sets set = some x → h.incoming = true → h.handedOver = false →
      jseq ≤ x.nextJseq → Runs (.handover set jseq now) s fun d => find d.peer.sets set = none ∧
        find d.peer.handbacks set = some { h with handedOver := true, requestedAt := now } ∧
        (∃ t, find d.stripes.sets set = some t ∧ t = { x.set with owner := s.dev.slot, recovering := true, ledgerJseq := t.ledgerJseq }) ∧
        (∀ k, k ≠ set → find d.stripes.sets k = find s.dev.stripes.sets k) ∧ d.stripes.nextJseq = s.dev.stripes.nextJseq + x.nextJseq) ∧
    ((∀ h, find s.dev.peer.handbacks set = some h → h.incoming = false ∨ h.handedOver = true) →
      Becomes (.handover set jseq now) s { s.dev with now := now }) ∧
    (∀ h, find s.dev.peer.handbacks set = some h → h.incoming = true → h.handedOver = true → set ∈ s.dev.peer.taken →
      Runs (.handbackDone set now) s fun d => find d.peer.handbacks set = none ∧
        NewestEvent s.dev d Cls.control 0x74 set [b1 s.dev.slot, b4 ((now - h.requestedAt) / 1000000)]) ∧
    ((∀ h, find s.dev.peer.handbacks set = some h → h.incoming = false ∨ h.handedOver = false ∨ set ∉ s.dev.peer.taken) →
      Becomes (.handbackDone set now) s { s.dev with now := now })) ∧
  (∀ (s : State) (client now value : Nat), Becomes (.handback client now value) s
    ((({ s.dev with now := now } : Dev).plainWrite client now 0x20C 4 value).1)) ∧
  (∀ d : Dev, ∀ sets, d.standbyReady = true → (∀ n ∈ List.range 16, bitOf sets n = true → find d.peer.handbacks n = none) →
    ∀ n < 16, bitOf sets n = true → d.ownsSet n = true →
      find (d.beginHandback sets).peer.handbacks n = some { edge := d.breath, incoming := false, requestedAt := d.now }) ∧
  (∀ (s : State) (f : Frame) (shelf : Nat),
    ((f.port < 256 ∨ s.dev.takesFrames f.port = false ∨ passesOn f.port f.bytes = false) →
      Becomes (.loopForward f shelf) s { s.dev with now := f.now }) ∧
    (∀ p ip, 256 ≤ f.port → s.dev.takesFrames f.port = true → passesOn f.port f.bytes = true →
      ({ s.dev with now := f.now } : Dev).classify f = .cuchail p → ipOf (etherOf f.bytes) = some ip →
      ∀ c : Dev, (({ s.dev with now := f.now } : Dev).total (hpcPort f.port 0x28) 32 1).policePort f.port (f.bytes.length + 4) = (c, true) →
      (s.dev.routeOf shelf = none → shelf < 64 → Becomes (.loopForward f shelf) s (c.count 0x21C)) ∧
      (∀ port, s.dev.routeOf shelf = some port → shelf < 64 → port = 256 + s.dev.field (0x600 + 8 * shelf) 0 2 →
        ∃ e : Dev, e = { c with peer := { c.peer with alternate := c.peer.alternate.filter fun x => x ≠ shelf } } ∧
          Becomes (.loopForward f shelf) s (e.transmit port 1 0 (etherOf f.bytes).payload.length
            (e.etherFrame port (Config.neighbourMac ip.dst) (etherOf f.bytes).type (etherOf f.bytes).payload)))))

/-- Qualification and health (R402, R403, R415, R416): the first check that fails rejects the bay with its reason, a drive that passes or has been
prepared is QUALIFIED, and a valid log is kept while three failed polls in a row fault the bay. -/
def Obligations.DrivesQualifyAndReportHealth : Prop :=
  (∀ (s : State) (bay now : Nat) (r : DriveReport),
    let b := s.dev.bay bay
    let may := r.empty = true ∨ s.dev.field 0xA00000 62 1 = 1
    let here := s.dev.slot = 0 ∨ s.dev.peer.state = .absent
    let other (d : Dev) : Prop := ∀ k, k ≠ bay → find d.bays k = find s.dev.bays k
    let rejected (d : Dev) (n : Nat) : Prop := other d ∧ (d.bay bay).state = .rejected ∧ (d.bay bay).reason = n ∧ (d.bay bay).commands = [] ∧
      NewestEvent s.dev d Cls.drive 0x02 bay [b1 n]
    let qualified (d : Dev) (x : Drive) (speed width : Nat) : Prop := other d ∧ (d.bay bay).state = .qualified ∧ (d.bay bay).reason = 0 ∧
      (d.bay bay).drive = some x ∧ (d.bay bay).fua = !x.plp ∧ (∀ c ∈ (d.bay bay).commands, c.2 = .admin 0x0C) ∧
      NewestEvent s.dev d Cls.drive 0x01 bay [b1 speed, b1 width, b1 (flag x.plp), b8 x.capacity]
    (b.state ≠ .qualifying → Becomes (.driveQualify bay r now) s { s.dev with now := now } ∧ Idles (.linkTrainTimeout bay) s ∧
      Idles (.cstsReadyTimeout bay) s ∧ ∀ ok, Becomes (.identifyRetry bay ok now) s { s.dev with now := now }) ∧
    (b.state = .qualifying →
      (r.failed ≠ 0 → r.failed ≠ 11 → Runs (.driveQualify bay r now) s fun d => rejected d r.failed) ∧
      (r.failed = 0 → Runs (.driveQualify bay r now) s fun d => qualified d r.drive r.speed r.width ∧ (d.bay bay).queues = min 8 r.queues) ∧
      (r.failed = 11 → ¬may → Runs (.driveQualify bay r now) s fun d => rejected d 11) ∧
      (r.failed = 11 → may → here → Runs (.driveQualify bay r now) s fun d => qualified d { r.drive with label := none } r.speed r.width) ∧
      (r.failed = 11 → may → ¬here → Runs (.driveQualify bay r now) s fun d => other d ∧ (d.bay bay).state = .qualifying ∧
        (d.bay bay).identifyTries = 1 ∧ (d.bay bay).drive = some r.drive) ∧
      (∀ x, b.identifyTries ≠ 0 → b.drive = some x → Runs (.identifyRetry bay true now) s fun d =>
        qualified d { x with label := none } b.speed b.width) ∧
      (1 ≤ b.identifyTries → b.identifyTries < 30 → Runs (.identifyRetry bay false now) s fun d =>
        other d ∧ d.bay bay = { b with identifyTries := b.identifyTries + 1 }) ∧
      (30 ≤ b.identifyTries → Runs (.identifyRetry bay false now) s fun d => rejected d 11) ∧
      (Runs (.linkTrainTimeout bay) s fun d => rejected d 1) ∧ (Runs (.cstsReadyTimeout bay) s fun d => rejected d 2) ∧
      (∀ cid op, find b.commands cid = some (.admin op) → Runs (.adminTimeout bay cid now) s fun d => rejected d (adminReason op)))) ∧
  (∀ s : State, (s.dev.field 0xA00000 62 1 = 0 → Idles .autoPrepare s) ∧
    (s.dev.field 0xA00000 62 1 = 1 → Runs .autoPrepare s fun d => ∀ k b, find s.dev.bays k = some b →
      (b.state = .rejected → b.reason = 11 → b.drive.isSome = true → (s.dev.slot = 0 ∨ s.dev.peer.state = .absent) → (d.bay k).state = .qualified) ∧
      (b.state ≠ .rejected → (∀ x ∈ s.dev.bays, x.1 = k → x.2 = b) → find d.bays k = some b))) ∧
  (∀ (s : State) (bay cid now : Nat),
    let b := s.dev.bay bay
    (b.state ≠ .qualified → Idles (.healthPoll bay) s) ∧
    (b.state = .qualified → b.commands = [] → b.quarantined = [] → ∃ n < 65536,
      Becomes (.healthPoll bay) s { s.dev with
        bays := put s.dev.bays bay { b with polling := true, commands := [(n, .admin 0x02)], nextCid := n + 1 }
        out := .nvme bay n (.admin 0x02) :: s.dev.out }) ∧
    (b.state = .qualified → cid ∉ b.quarantined → find b.commands cid = some (.admin 0x02) →
      (∀ l : SmartLog, 200 ≤ l.tempK → l.tempK ≤ 400 → l.critWarning % 32 = 0 → l.pctUsed < s.dev.field 0xA00008 0 8 →
        Runs (.nvmeAdminCompletion bay cid (some l) now) s fun d => (d.bay bay).state = .qualified ∧ (d.bay bay).failedPolls = 0 ∧
          find (d.bay bay).commands cid = none ∧ (d.bay bay).drive = b.drive.map fun x => { x with
            critWarning := l.critWarning, pctUsed := l.pctUsed, availSpare := l.availSpare, tempK := l.tempK
            unitsWritten := l.unitsWritten, mediaErrors := l.mediaErrors, pollBreath := s.dev.breath }) ∧
      (∀ l : SmartLog, 200 ≤ l.tempK → l.tempK ≤ 400 → l.critWarning = 8 → b.conditions = 0 → l.pctUsed < s.dev.field 0xA00008 0 8 →
        Runs (.nvmeAdminCompletion bay cid (some l) now) s fun d => (d.bay bay).state = .faulted) ∧
      (∀ h : Option SmartLog, (∀ l, h = some l → l.tempK < 200 ∨ 400 < l.tempK) → b.failedPolls < 2 →
        Runs (.nvmeAdminCompletion bay cid h now) s fun d =>
          d.bay bay = { b with commands := drop b.commands cid, failedPolls := b.failedPolls + 1, polling := false } ∧
          d = { s.dev with now := now, bays := d.bays }) ∧
      (∀ h : Option SmartLog, (∀ l, h = some l → l.tempK < 200 ∨ 400 < l.tempK) → 2 ≤ b.failedPolls →
        Runs (.nvmeAdminCompletion bay cid h now) s fun d => (d.bay bay).state = .faulted) ∧
      (b.failedPolls < 2 → Runs (.adminTimeout bay cid now) s fun d =>
        d.bay bay = { b with commands := drop b.commands cid, failedPolls := b.failedPolls + 1, polling := false })))

/-- Drive failures, links and requests (R401, R408 to R414): a read that times out is quarantined and its late completion discarded, a write that
does faults the bay, a lost link holds its writes until it returns or expires, and a request outside the issued buffers is counted. -/
def Obligations.DriveFailuresAndLinks : Prop :=
  (∀ (d : Dev) (bay cause : Nat) (new : MemberState),
    let e := d.faultBay bay cause new
    ((d.bay bay).state ≠ .qualified → (d.bay bay).state ≠ .linkLost → e = d) ∧
    (((d.bay bay).state = .qualified ∨ (d.bay bay).state = .linkLost) → (e.bay bay).state = .faulted ∧ (e.bay bay).commands = [] ∧
      (∀ c ∈ (d.bay bay).commands, c.2.isRead = true → c.1 ∈ (e.bay bay).quarantined) ∧
      (d.memberOf bay = none → d.retiringOf bay = none → NewestEvent d e Cls.drive 0x07 bay [b1 cause] ∧ e.stripes = d.stripes))) ∧
  (∀ (s : State) (bay cid now : Nat),
    let b := s.dev.bay bay
    let count (off : Nat) : Nat := 0xA01000 + bay * 0x80 + off
    (find b.commands cid = none → Becomes (.readTimeout bay cid now) s { s.dev with now := now } ∧
      Becomes (.writeTimeout bay cid now) s { s.dev with now := now }) ∧
    (∀ u, find b.commands cid = some u →
      (u.isRead = false → u.isAdmin = false →
        Becomes (.writeTimeout bay cid now) s (({ s.dev with now := now } : Dev).faultBay bay 0 .failed)) ∧
      (u.isRead = true ∨ u.isAdmin = true → Becomes (.writeTimeout bay cid now) s { s.dev with now := now }) ∧
      (u.isRead = false → Becomes (.readTimeout bay cid now) s { s.dev with now := now }) ∧
      (u.isRead = true → ∃ e : Dev, e = { s.dev with now := now, bays := e.bays, regs := e.regs } ∧
        e.bay bay = { b with
          commands := drop b.commands cid, quarantined := b.quarantined ++ [cid], secondTimeouts := b.secondTimeouts + 1
          readTimeouts := min (2 ^ 32 - 1) (b.readTimeouts + 1) } ∧
        e.reg (count 4) = min (2 ^ 32 - 1) (s.dev.reg (count 4) + 1) ∧ RegsKept s.dev e [count 4] ∧
        Becomes (.readTimeout bay cid now) s (e.countRepair bay))) ∧
    (cid ∈ b.quarantined → ∀ i ∈ ([.nvmeReadCompletion bay cid true now, .nvmeReadCompletion bay cid false now,
        .nvmeWriteCompletion bay cid .success now, .nvmeFlushCompletion bay cid .success now, .nvmeAdminCompletion bay cid none now] : List Instr),
      Runs i s fun d => d.bay bay = { b with lateCpl := min (2 ^ 32 - 1) (b.lateCpl + 1) } ∧
        d.reg (count 8) = min (2 ^ 32 - 1) (s.dev.reg (count 8) + 1) ∧ RegsKept s.dev d [count 8] ∧
        d = { s.dev with now := now, bays := d.bays, regs := d.regs }) ∧
    (cid ∉ b.quarantined → b.state ≠ .linkLost → ∀ u, find b.commands cid = some u →
      (∀ ok, (ok = true ∨ ∀ n k, u ≠ .scrubRead n k) → Runs (.nvmeReadCompletion bay cid ok now) s fun d =>
        d.bay bay = { b with commands := drop b.commands cid } ∧ d = { s.dev with now := now, bays := d.bays }) ∧
      (∀ n k t, u = .scrubRead n k → find s.dev.stripes.sets n = some t → Runs (.nvmeReadCompletion bay cid false now) s fun d =>
        ∃ x, find d.stripes.sets n = some x ∧ k ∈ x.scrubQueue)) ∧
    (Runs (.cidQuarantineEnd bay cid) s fun d => d.bay bay = { b with quarantined := b.quarantined.erase cid } ∧ d = { s.dev with bays := d.bays }) ∧
    (Becomes (.controllerFatal bay now) s (({ s.dev with now := now } : Dev).faultBay bay 3 .failed))) ∧
  (∀ (d : Dev) (bay n i : Nat) (t : StripeSet) (m : Member), d.memberOf bay = some (n, i) → find d.stripes.sets n = some t → t.old = none →
    find t.layout.members i = some m → m.bay = bay → m.lost = false → d.now < m.hourFrom + 3600000000000000 →
    m.repairs + 1 < d.field (setAt n 0x30) 24 8 →
    ∃ u, find (d.countRepair bay).stripes.sets n = some u ∧ find u.layout.members i = some { m with repairs := m.repairs + 1 }) ∧
  (∀ (s : State) (bay now : Nat),
    let b := s.dev.bay bay
    (b.state = .qualified → Runs (.driveLinkDown bay now) s fun d => d.bay bay = { b with state := .linkLost, linkDownAt := now } ∧
      NewestEvent s.dev d Cls.drive 0x04 bay [] ∧ d.stripes = s.dev.stripes) ∧
    (b.state ≠ .qualified → Becomes (.driveLinkDown bay now) s { s.dev with now := now }) ∧
    (b.state = .linkLost → Runs (.driveLinkUp bay now) s fun d => (d.bay bay).state = .qualified ∧ (d.bay bay).waiting = [] ∧
      (∀ c ∈ b.commands, c.1 ∈ (d.bay bay).quarantined) ∧ NewestEvent s.dev d Cls.drive 0x05 bay [b4 ((now - b.linkDownAt) / 1000000000)]) ∧
    (b.state ≠ .linkLost → Becomes (.driveLinkUp bay now) s { s.dev with now := now } ∧
      Becomes (.linkDownExpiry bay now) s { s.dev with now := now }) ∧
    (b.state = .linkLost → Becomes (.linkDownExpiry bay now) s (({ s.dev with now := now } : Dev).faultBay bay 5 .missing))) ∧
  (∀ (s : State) (bay addr len : Nat),
    let b := s.dev.bay bay
    let inside := ∃ r ∈ b.issued, r.1 ≤ addr ∧ addr + len ≤ r.1 + r.2
    (inside → (∀ x, Idles (.driveDmaRequest bay addr len (some x)) s) ∧
      Becomes (.driveDmaRequest bay addr len none) s { s.dev with out := .dma bay addr len :: s.dev.out }) ∧
    (¬inside → ∀ x, Runs (.driveDmaRequest bay addr len x) s fun d => d.out = s.dev.out ∧ d.bay bay = { b with
        badDma := min (2 ^ 32 - 1) (b.badDma + 1), secondBadDma := b.secondBadDma + 1
        firstBadDma := if b.secondBadDma = 0 then addr else b.firstBadDma } ∧
      d.reg (0xA0100C + bay * 0x80) = min (2 ^ 32 - 1) (s.dev.reg (0xA0100C + bay * 0x80) + 1) ∧ RegsKept s.dev d [0xA0100C + bay * 0x80]))

/-- The inlet and the bays (R419 to R431, R492): the inlet's machine runs from seat and window over DELAY and RAMP to ON, faults latch or retry at
most three times, and each bay's channel follows its own machine, with at most four ramps at once and none under the budget. -/
def Obligations.InletAndBayPower : Prop :=
  (∀ (s : State) (now : Nat),
    let p := s.dev.power
    (p.seated = true → Becomes (.moduleSeated now) s { s.dev with now := now }) ∧
    (p.seated = false → s.dev.startUp.fail ≠ 1 → s.dev.startUp.fail ≠ 2 → Becomes (.moduleSeated now) s { s.dev with
      now := now, power := { p with seated := true, cause := 0, tries := 0, inlet := if p.inWindow = true then .delay else .wait } }) ∧
    (p.seated = false → Becomes (.moduleExtraction now) s { s.dev with now := now }) ∧
    (p.seated = true → p.inlet ≠ .on → Becomes (.moduleExtraction now) s { s.dev with
      now := now, power := { p with seated := false, inlet := .wait, cause := 0, tries := 0 } }) ∧
    (p.seated = true → p.inlet = .on → p.saving = none → Runs (.moduleExtraction now) s fun d => d.power.seated = false ∧
      d.power.inlet = .wait ∧ d.power.saving = some now ∧ d.peer.aliveOut = false ∧ d.chanters.threads = []) ∧
    Becomes (.inletWindow true now) s { s.dev with now := now, power := { p with
      inWindow := true, inlet := if p.inlet = .wait ∧ p.seated = true ∧ p.failing = none then .delay else p.inlet } } ∧
    Becomes (.inletWindow false now) s { s.dev with now := now, power := { p with inWindow := false, inlet := .wait } } ∧
    Becomes .inletDelayExpiry s { s.dev with power := { p with
      inlet := if p.inlet = .delay ∧ p.seated = true ∧ p.inWindow = true then .ramp else p.inlet } } ∧
    (∀ mv us', p.inlet = .ramp → Runs (.inletOn mv us' now) s fun d => d.power.inlet = .on ∧ d.power.charging = !p.budget ∧
      find d.power.readings 0 = some mv ∧ d.startUp.inletOnAt = now ∧ NewestEvent s.dev d Cls.power 0x01 0 [b4 mv, b4 us']) ∧
    (∀ mv us', p.inlet ≠ .ramp → Becomes (.inletOn mv us' now) s { s.dev with now := now }) ∧
    (∀ cause, ((p.inlet = .ramp ∨ p.inlet = .on) → Runs (.inletFault cause now) s fun d => d.power = { p with
        cause := cause, inlet := if s.dev.field 0xB00004 0 1 = 1 ∧ p.tries < 3 then .retry else .fault } ∧
        NewestEvent s.dev d Cls.power 0x02 0 [b1 cause, b1 p.tries]) ∧
      (p.inlet ≠ .ramp → p.inlet ≠ .on → Becomes (.inletFault cause now) s { s.dev with now := now })) ∧
    (p.inlet = .ramp → Runs .inletRampTimeout s fun d => d.power.cause = 4 ∧ (d.power.inlet = .retry ∨ d.power.inlet = .fault)) ∧
    (p.inlet ≠ .ramp → Idles .inletRampTimeout s) ∧
    (p.inlet = .retry → Becomes .inletRetry s { s.dev with power := { p with inlet := .ramp, tries := p.tries + 1 } }) ∧
    (p.inlet ≠ .retry → Idles .inletRetry s) ∧
    (∀ c, ((p.inlet = .fault ∨ p.inlet = .retry) → Becomes (.inletFaultClear c) s { s.dev with power := { p with
        tries := 0, inlet := if p.inWindow = true ∧ p.seated = true then .delay else .wait } }) ∧
      (p.inlet ≠ .fault → p.inlet ≠ .retry → Idles (.inletFaultClear c) s))) ∧
  (∀ (s : State) (bay now : Nat), bay < 32 →
    let c := s.dev.channel bay
    let on : Bool := s.dev.field (0xB01000 + bay * 0x20) 0 1 == 1
    let begun : BayPower := if on = false then .off else if s.dev.power.inlet = .on ∧ 3 ≤ s.dev.startUp.phase then .delay else .empty
    let other (d : Dev) : Prop := ∀ k, k ≠ bay → (s.dev.channel k).held = false → d.channel k = s.dev.channel k
    (c.present = true → Idles (.bayInserted bay) s) ∧
    (c.present = false → Runs (.bayInserted bay) s fun d => d.channel bay = { present := true, state := begun } ∧ other d ∧
      NewestEvent s.dev d Cls.power 0x06 bay []) ∧
    (c.present = false → Becomes (.bayRemoved bay now) s { s.dev with now := now }) ∧
    (c.present = true → Runs (.bayRemoved bay now) s fun d => d.channel bay = {} ∧ other d ∧ (d.bay bay).state = .empty) ∧
    (∀ fed, c.state ≠ .delay → Idles (.bayDelayExpiry bay fed) s) ∧
    (c.state = .delay → Runs (.bayDelayExpiry bay true) s fun d => d.channel bay = { c with state := .on, shared := true } ∧
      ∃ k, (k = 0x03) ∧ ∀ e < 4, s.dev.hears e Cls.power = true → ∃ r ∈ (d.client e).history, r.cls = 4 ∧ r.code = k ∧ r.unit = bay) ∧
    (c.state = .delay → s.dev.power.budget = false → s.dev.ramps < 4 → (∀ k, k ≠ bay → (s.dev.channel k).held = false) →
      (∀ x ∈ s.dev.power.bays, x.1 = bay ∨ x.2.held = false) → Runs (.bayDelayExpiry bay false) s fun d =>
        d.channel bay = { c with state := .ramp, held := false } ∧ other d) ∧
    (c.state = .delay → (s.dev.power.budget = true ∨ 4 ≤ s.dev.ramps) → (∀ x ∈ s.dev.power.bays, x.1 = bay → x.2 = c) →
      Runs (.bayDelayExpiry bay false) s fun d => d.channel bay = { c with held := true } ∧ other d) ∧
    (c.state ≠ .ramp → Idles (.bayPowered bay now) s ∧ Becomes (.bayRampTimeout bay now) s { s.dev with now := now }) ∧
    (∀ us', c.state = .ramp → Runs (.bayPowered bay us') s fun d => d.channel bay = { c with state := .on, shared := false } ∧ other d ∧
      ((s.dev.bay bay).state = .empty → (d.bay bay).state = .qualifying)) ∧
    (Runs (.auxDelayExpiry bay) s fun d => d.channel bay = { c with
      aux := c.aux || (c.present && decide (s.dev.power.inlet = .on) && decide (c.state ≠ .fault) && decide (c.state ≠ .retry)) } ∧ other d) ∧
    (∀ cause peak, c.fed = false → Becomes (.bayFault bay cause peak now) s { s.dev with now := now }) ∧
    (∀ cause peak, c.fed = true → Runs (.bayFault bay cause peak now) s fun d => other d ∧ d.channel bay = { c with
        aux := false, cause := cause, shared := false
        state := if c.state = .off then .off else if s.dev.field (0xB01000 + bay * 0x20) 2 1 = 1 ∧ c.tries < 3 then .retry else .fault } ∧
      d.reg (0xB01018 + bay * 0x20) = min (2 ^ 32 - 1) (s.dev.reg (0xB01018 + bay * 0x20) + 1) ∧
      ((s.dev.bay bay).state = .qualified → (d.bay bay).state = .linkLost)) ∧
    (c.state = .ramp → c.present = true → Runs (.bayRampTimeout bay now) s fun d =>
      (d.channel bay).cause = 4 ∧ ((d.channel bay).state = .retry ∨ (d.channel bay).state = .fault)) ∧
    (c.state ≠ .retry → Idles (.bayRetry bay) s) ∧
    (c.state = .retry → Runs (.bayRetry bay) s fun d => (d.channel bay).tries = c.tries + 1 ∧ (d.channel bay).aux = true ∧
      ((d.channel bay).state = .ramp ∨ (d.channel bay).state = .delay ∧ (d.channel bay).held = true) ∧ other d) ∧
    (∀ client, (c.state ≠ .fault → c.state ≠ .retry → Idles (.bayFaultClear client bay) s) ∧
      ((c.state = .fault ∨ c.state = .retry) → c.present = true → Runs (.bayFaultClear client bay) s fun d =>
        (d.channel bay).tries = 0 ∧ (d.channel bay).state = begun ∧ other d)) ∧
    (∀ client value, s.dev.bayCtlOk bay value = false → Becomes (.bayEnable client bay value now) s { s.dev with now := now }) ∧
    (∀ client value, s.dev.bayCtlOk bay value = true → Runs (.bayEnable client bay value now) s fun d =>
      d.field (0xB01000 + bay * 0x20) 0 1 = value % 2 ∧ d.field (0xB01000 + bay * 0x20) 1 1 = 0 ∧ d.field (0xB01000 + bay * 0x20) 3 1 = 0 ∧
      (value % 2 = 0 → c.present = true → (d.channel bay).state = .off) ∧ other d) ∧
    (∀ value, value % 2 = 0 → value / 2 % 2 = 0 → (s.dev.bayCtlOk bay value = true ↔ s.dev.bayInUse bay = false))) ∧
  (∀ (s : State) (ma : Nat),
    let p := s.dev.power
    (29000 < ma → p.budget = false → Runs (.powerBudget ma) s fun d => d.power.budget = true ∧ d.power.charging = false ∧
      find d.power.readings 1 = some ma ∧ d.power.bays = p.bays ∧ NewestEvent s.dev d Cls.power 0x10 0 [b4 ma, b4 s.dev.baysHeld]) ∧
    ((ma ≤ 29000 ∨ p.budget = true) → Runs (.powerBudget ma) s fun d => d.power.budget = p.budget ∧ d.power.charging = p.charging ∧
      d.events = s.dev.events) ∧
    (p.budget = false → Idles .powerBudgetRelease s) ∧
    (p.budget = true → Runs .powerBudgetRelease s fun d => d.power.budget = false ∧
      d.power.charging = (decide (p.inlet = .on) && !p.full) ∧ d.events = s.dev.events))

/-- Power loss, hold-up and cooling (R432 to R440, R477, R502): the bank carries the module until the supply returns or the save starts; the bank
is armed from 300 J and full from 49.5 V; fans and temperatures report their faults, and a thermal shutdown saves. -/
def Obligations.HoldUpSaveAndCooling : Prop :=
  (∀ (s : State) (mv now : Nat),
    let p := s.dev.power
    ((p.failing ≠ none ∨ p.saving ≠ none) → Becomes (.powerFail mv now) s { s.dev with now := now }) ∧
    (p.failing = none → p.saving = none → Runs (.powerFail mv now) s fun d => d.power.failing = some now ∧ d.power.charging = false ∧
      find d.power.readings 0 = some mv ∧ d.power.saving = none ∧ NewestEvent s.dev d Cls.power 0x08 0 [b4 mv]) ∧
    (∀ t, p.failing = some t → p.saving = none → p.inlet ≠ .fault → p.inlet ≠ .retry → Runs (.powerRestored now) s fun d =>
      d.power = { p with failing := none, inWindow := true, inlet := .on, charging := !p.full && !p.budget } ∧
      NewestEvent s.dev d Cls.power 0x09 0 [b4 ((now - t) / 1000000)]) ∧
    ((p.failing = none ∨ p.saving ≠ none ∨ p.inlet = .fault ∨ p.inlet = .retry) → Becomes (.powerRestored now) s { s.dev with now := now }) ∧
    ((p.failing = none ∨ p.saving ≠ none) → Becomes (.saveStart now) s { s.dev with now := now }) ∧
    (p.failing ≠ none → p.saving = none → Runs (.saveStart now) s fun d => d.power.saving = some now ∧ d.peer.aliveOut = false ∧
      d.peer.ownerOut = false ∧ d.chanters.threads = [] ∧ d.serving = false ∧ d.stripes = s.dev.stripes ∧
      (∀ k, (d.channel k).state = .off ∧ (d.channel k).aux = false ∨ (d.channel k) = {} ∧ find p.bays k = none) ∧
      let slot : DumpSlot := { complete := false, breath := s.dev.breath, jseq := s.dev.stripes.nextJseq - 1, owned := s.dev.owned }
      (p.nextSlot = true → d.power.dumpB = some slot ∧ d.power.dumpA = p.dumpA) ∧
      (p.nextSlot = false → d.power.dumpA = some slot ∧ d.power.dumpB = p.dumpB)) ∧
    (∀ a b, p.dumpA = some a → p.dumpB = some b → a.complete = true → b.complete = true → (p.nextSlot = true ↔ b.breath ≤ a.breath)) ∧
    (p.thermal = true → Becomes (.thermalShutdown now) s { s.dev with now := now }) ∧
    (p.thermal = false → p.saving = none → Runs (.thermalShutdown now) s fun d => d.power.thermal = true ∧ d.power.saving = some now ∧
      d.power.saveCause = 1 ∧ d.peer.aliveOut = false)) ∧
  (∀ (s : State) (mv : Nat),
    let p := s.dev.power
    let c := if p.capMf = 0 then 580 else p.capMf
    let u := c * (mv * mv - 400000000) / 2000000000
    (300 ≤ u → p.armed = false → Runs (.holdupCharged mv) s fun d => d.power.armed = true ∧ find d.power.readings 2 = some mv ∧
      NewestEvent s.dev d Cls.power 0x0B 0 [b4 u]) ∧
    (300 ≤ u → p.armed = true → Runs (.holdupCharged mv) s fun d => d.power.armed = true ∧ d.events = s.dev.events) ∧
    (49500 ≤ mv → Runs (.holdupFullCharge mv) s fun d => d.power.full = true ∧ d.power.charging = false ∧ find d.power.readings 2 = some mv) ∧
    (mv < 48500 → Runs (.holdupRecharge mv) s fun d => d.power.full = false ∧ d.power.charging = (decide (p.inlet = .on) && !p.budget)) ∧
    (∀ dv, p.full = false ∨ dv = 0 → Idles (.holdupTest dv mv) s) ∧
    (∀ dv, p.full = true → dv ≠ 0 →
      let m := 1000000 / dv
      let v := (if m = 0 then 580 else m) * (mv * mv - 400000000) / 2000000000
      Runs (.holdupTest dv mv) s fun d => d.power.capMf = m ∧ d.power.full = decide (49500 ≤ mv) ∧ d.power.armed = decide (300 ≤ v) ∧
        (m ≠ 0 → v < 450 → p.wornPosted = false → d.power.wornPosted = true ∧ NewestEvent s.dev d Cls.power 0x0D 0 [b4 m, b4 v]))) ∧
  (∀ (s : State) (n : Nat),
    let p := s.dev.power
    (n ∈ p.stale → Idles (.sensorFault n) s) ∧
    (n ∉ p.stale → Runs (.sensorFault n) s fun d => d.power = { p with stale := n :: p.stale } ∧
      NewestEvent s.dev d Cls.power 0x11 0 [b1 n, b4 ((find p.readings n).getD 0)]) ∧
    (n ∈ p.tempStale → Idles (.temperatureStale n) s) ∧
    (n ∉ p.tempStale → Runs (.temperatureStale n) s fun d => d.power = { p with tempStale := n :: p.tempStale, duty := 100 } ∧
      NewestEvent s.dev d Cls.power 0x11 0 [b1 (128 + n), i4 (median ((find p.temps n).getD []))]) ∧
    (∀ c : Int, c < -40 ∨ 150 < c → Idles (.temperatureSample n c) s) ∧
    (∀ c : Int, -40 ≤ c → c ≤ 150 → Runs (.temperatureSample n c) s fun d =>
      find d.power.temps n = some ((c :: (find p.temps n).getD []).take 5) ∧ (∀ k, k ≠ n → find d.power.temps k = find p.temps k) ∧
      d.power.tempStale = p.tempStale.erase n ∧ (d.power.tempStale ≠ [] → 3 ≤ s.dev.startUp.phase → d.power.duty = 100)) ∧
    (∀ rpm, n < 6 → n ∉ p.fansFailed → 30 ≤ p.dutyOut n → rpm < s.dev.field 0xB00030 32 16 → Runs (.fanFault n rpm) s fun d =>
      d.power.fansFailed = n :: p.fansFailed ∧ find d.power.rpm n = some rpm ∧ (∀ k, k ≠ n → d.power.dutyOut k = 100) ∧
      NewestEvent s.dev d Cls.power 0x0E n [b4 rpm, b1 (p.dutyOut n)]) ∧
    (∀ rpm, n ∈ p.fansFailed → s.dev.field 0xB00030 32 16 ≤ rpm → Runs (.fanRestored n rpm) s fun d =>
      d.power.fansFailed = p.fansFailed.erase n ∧ find d.power.rpm n = some rpm ∧ NewestEvent s.dev d Cls.power 0x0F n [b4 rpm]))

/-- BAR2 windows (R451 to R454): a request waits where its window is held, else it is translated once, by the active copy of the window it falls
in, or refused and counted; a commit takes every window of its mask or none, and an ended hold releases what waited. -/
def Obligations.Bar2RequestsAndWindows : Prop :=
  (∀ (d : Dev) (r : Bar2Request) (i : Nat) (x : Region) (off : Nat), d.barTarget r = some (i, x, off) → ∃ w < 64,
    let c := d.reg (0xC02000 + 0x20 * w)
    let base := bitsOf c 12 24 * 4096
    bitOf c 0 = true ∧ base ≤ r.addr ∧ r.addr + r.len ≤ base + 2 ^ bitsOf c 4 5 ∧ (r.write = none → bitOf c 1 = true) ∧
    (r.write ≠ none → bitOf c 2 = true) ∧ find d.memory.regions i = some x ∧ x.kind = .buffer ∧ x.life = .held ∧
    d.reg (0xC02008 + 0x20 * w) = i * 256 + x.gen % 256 ∧ off = d.reg (0xC02010 + 0x20 * w) + (r.addr - base)) ∧
  (∀ (s : State) (r : Bar2Request),
    ((s.dev.barHeld r = true ∨ s.dev.holdFull r = true) → Becomes (.bar2Tlp r) s { s.dev with
      endpoint := { s.dev.endpoint with heldRequests := s.dev.endpoint.heldRequests ++ [r] } }) ∧
    (s.dev.barHeld r = false → s.dev.holdFull r = false →
      (∀ i x off b, s.dev.barTarget r = some (i, x, off) → r.write = some b → Runs (.bar2Tlp r) s fun d => ∃ m : List Host.Cell,
        find d.memory.regions i = some { x with mem := m } ∧
        (∀ a, readByte m a = if off ≤ a ∧ a < off + b.length then b.getD (a - off) 0 else readByte x.mem a) ∧
        (∀ j, j ≠ i → find d.memory.regions j = find s.dev.memory.regions j) ∧
        d = { s.dev with memory := { s.dev.memory with regions := d.memory.regions } }) ∧
      (∀ i x off, s.dev.barTarget r = some (i, x, off) → r.write = none → Becomes (.bar2Tlp r) s { s.dev with
        out := .answer r.tag (some (readBytes x.mem off r.len)) :: s.dev.out }) ∧
      (s.dev.barTarget r = none → Runs (.bar2Tlp r) s fun d => d.memory = s.dev.memory ∧
        d.out = (if r.write = none then [.answer r.tag none] else []) ++ s.dev.out ∧
        d.reg 0xC0002C = min (2 ^ 32 - 1) (s.dev.reg 0xC0002C + 1) ∧ RegsKept s.dev d [0xC0002C]))) ∧
  (∀ (d : Dev) (mask w : Nat), w < 64 → d.commitError mask w = 0 →
    let c := d.reg (0xC01000 + 0x20 * w)
    let size := 2 ^ bitsOf c 4 5
    let base := bitsOf c 12 24 * 4096
    12 ≤ bitsOf c 4 5 ∧ bitsOf c 4 5 ≤ 32 ∧ base % size = 0 ∧
    (∃ i x, d.bufferRegion (d.reg (0xC01008 + 0x20 * w)) = some (i, x) ∧ d.reg (0xC01010 + 0x20 * w) + size ≤ x.length) ∧
    (bitOf c 0 = true → ∀ v < 64, v ≠ w →
      let e := d.reg ((if bitOf mask v = true then 0xC01000 else 0xC02000) + 0x20 * v)
      bitOf e 0 = true → base + size ≤ bitsOf e 12 24 * 4096 ∨ bitsOf e 12 24 * 4096 + 2 ^ bitsOf e 4 5 ≤ base)) ∧
  (∀ (s : State) (client mask : Nat),
    (client ≠ 0 → Idles (.pepWinCommit client mask) s ∧ Idles (.pepWinHold client mask) s) ∧
    (client = 0 → (∃ w < 64, bitOf mask w = true ∧ s.dev.commitError mask w ≠ 0) → Runs (.pepWinCommit client mask) s fun d =>
      d.field 0xC00020 0 1 = 1 ∧ RegsKept s.dev d [0xC00020] ∧ d = { s.dev with regs := d.regs }) ∧
    (client = 0 → (∀ w < 64, bitOf mask w = true → s.dev.commitError mask w = 0) → Runs (.pepWinCommit client mask) s fun d =>
      d.field 0xC00020 0 1 = 0 ∧ d = { s.dev with regs := d.regs } ∧ ∀ w < 64, ∀ off ∈ [0, 8, 16],
        d.reg (0xC02000 + 0x20 * w + off) =
          if bitOf mask w = true then s.dev.reg (0xC01000 + 0x20 * w + off) else s.dev.reg (0xC02000 + 0x20 * w + off)) ∧
    (client = 0 → s.dev.endpoint.heldRequests = [] → Runs (.pepWinHold client mask) s fun d =>
      d.reg 0xC00018 = mask % 2 ^ 64 ∧ d.field 0xC00020 10 1 = 0 ∧ RegsKept s.dev d [0xC00018, 0xC00020] ∧ d = { s.dev with regs := d.regs }) ∧
    (∀ r, client = 0 → s.dev.endpoint.heldRequests = [r] → (∀ w, s.dev.barHit r.addr = some w → bitOf mask w = false) → r.len < 131072 →
      Runs (.pepWinHold client mask) s fun d => d.endpoint.heldRequests = [] ∧ ∃ e : Dev,
        e = { s.dev with regs := e.regs, endpoint := { s.dev.endpoint with heldRequests := [] } } ∧ d = e.translate r)) ∧
  (∀ (s : State) (w : Nat),
    ((64 ≤ w ∨ bitOf (s.dev.reg 0xC00018) w = false) → Idles (.pepWinHoldExpired w) s) ∧
    (w < 64 → bitOf (s.dev.reg 0xC00018) w = true → Runs (.pepWinHoldExpired w) s fun d => bitOf (d.reg 0xC00018) w = false ∧
      d.field 0xC00020 10 1 = 1 ∧ (s.dev.endpoint.heldRequests = [] → NewestEvent s.dev d Cls.control 0x82 w [b4 0])))

/-- Interrupts, bus mastering and resets of the endpoint (R449, R450, R456, R457, R459): a message waits while masked or inside its gap, nothing is
requested while mastering is off, and a reset fences the HOST queues, ends every read and clears what the host programmed. -/
def Obligations.EndpointInterruptsAndResets : Prop :=
  (∀ (d : Dev) (v : Nat),
    let open' := v ∈ d.endpoint.unmasked ∧ d.endpoint.functionMasked = false ∧ d.busMaster = true
    (¬open' → v ∈ (d.interrupt v).endpoint.pendingVectors ∧ (d.interrupt v).out = d.out) ∧
    (open' → v ∈ d.endpoint.gapRunning → v ∈ (d.interrupt v).endpoint.gapDue ∧ (d.interrupt v).out = d.out) ∧
    (open' → v ∉ d.endpoint.gapRunning → (d.interrupt v).out = .interrupt v :: d.out ∧
      (d.field 0xC00008 20 12 ≠ 0 → v ∈ (d.interrupt v).endpoint.gapRunning) ∧
      (d.field 0xC00008 20 12 = 0 → (d.interrupt v).endpoint = d.endpoint))) ∧
  (∀ (s : State) (v : Nat),
    let e := s.dev.endpoint
    (v ∉ e.gapDue → Runs (.irqGapExpiry v) s fun d => v ∉ d.endpoint.gapRunning ∧ d.out = s.dev.out) ∧
    (v ∈ e.gapDue → v ∈ e.unmasked → e.functionMasked = false → s.dev.busMaster = true → Runs (.irqGapExpiry v) s fun d =>
      v ∉ d.endpoint.gapDue ∧ d.out = .interrupt v :: s.dev.out) ∧
    (v < 2048 → Runs (.msixUnmask (some v)) s fun d => v ∈ d.endpoint.unmasked ∧
      (v ∉ e.pendingVectors → d.out = s.dev.out) ∧
      (v ∈ e.pendingVectors → e.functionMasked = false → s.dev.busMaster = true → v ∉ e.gapRunning →
        d.out = .interrupt v :: s.dev.out ∧ v ∉ d.endpoint.pendingVectors)) ∧
    (2048 ≤ v → Idles (.msixUnmask (some v)) s) ∧
    (Runs (.msixUnmask none) s fun d => d.endpoint.functionMasked = false ∧ (e.pendingVectors = [] → d.out = s.dev.out))) ∧
  (∀ (s : State) (speed width : Nat), speed < 8 → width < 32 → Runs (.endpointLinkUp speed width) s fun d =>
    d.field 0xC00004 0 3 = speed ∧ d.field 0xC00004 3 5 = width ∧ d.field 0xC00004 8 2 = s.dev.field 0xC00004 8 2 ∧
    d.field 0xC00004 16 16 = min 65535 (s.dev.field 0xC00004 16 16 + 1) ∧ RegsKept s.dev d [0xC00004, 0x318] ∧
    NewestEvent s.dev d Cls.control 0x81 0 [b1 speed, b1 width]) ∧
  (∀ s : State,
    (s.dev.endpoint.waitingReads = [] → Runs (.busMasterDisable false) s fun d => d.busMaster = false ∧ d.endpoint = s.dev.endpoint ∧
      d.front = s.dev.front ∧ d.out = s.dev.out) ∧
    (s.dev.endpoint.waitingReads = [] → Runs (.busMasterDisable true) s fun d => d.busMaster = false ∧ d.field 0xC00004 9 1 = 1 ∧
      d.endpoint = s.dev.endpoint ∧ d.front = s.dev.front ∧ d.out = s.dev.out) ∧
    (s.dev.endpoint.pendingVectors = [] → s.dev.front.cqs = [] → Runs .busMasterEnable s fun d => d.busMaster = true ∧
      d = { s.dev with regs := d.regs } ∧ RegsKept s.dev d [0xC00004])) ∧
  (∀ (s : State) (cause now : Nat), cause < 4 → Runs (.endpointReset cause now) s fun d =>
    d.busMaster = false ∧ d.endpoint.reads = [] ∧ d.endpoint.waitingReads = [] ∧ d.endpoint.heldRequests = [] ∧ d.endpoint.unmasked = [] ∧
    d.reg 0xC00018 = 0 ∧ (∀ w < 64, ∀ off ∈ [0, 8, 16], d.reg (0xC01000 + 0x20 * w + off) = 0 ∧ d.reg (0xC02000 + 0x20 * w + off) = 0) ∧
    (∀ k q, find s.dev.front.sqs k = some q → q.place = .host → k < 32768 → ∃ r, find d.front.sqs k = some r ∧ r.fenced = true) ∧
    (∀ k q, find s.dev.front.cqs k = some q → q.place = .host → k < 32768 → ∃ r, find d.front.cqs k = some r ∧ r.fenced = true) ∧
    (∀ k q, s.dev.endpoint.reads = [] → s.dev.endpoint.waitingReads = [] → find s.dev.front.sqs k = some q → q.place ≠ .host →
      q.fenced = false → (∀ c x, find s.dev.front.cqs c = some x → x.place = .host → q.cq ≠ c) → k ≠ 32768 →
      ∃ r, find d.front.sqs k = some r ∧ r.fenced = false) ∧
    d.field 0x500010 32 1 = 0 ∧ d.field 0xC0000C 0 16 = min 65535 (s.dev.field 0xC0000C 0 16 + 1) ∧ d.field 0xC0000C 16 2 = cause ∧
    (s.dev.endpoint.reads = [] → s.dev.endpoint.waitingReads = [] → d.control = s.dev.control))

/-- Events (R482 to R484, R498, R499): a history keeps the last 4,096 records, clients 1 to 3 get EVENT messages and client 0 its ring, losses are
reported ahead of what follows them, and the management port mirrors what was posted and changes nothing else. -/
def Obligations.EventsReachTheirClients : Prop :=
  (∀ (d : Dev) (cls code unit : Nat) (data : List Item) (c : Nat), c < 4 →
    let e := d.post cls code unit data
    (d.hears c cls = false → e.client c = d.client c) ∧
    (d.hears c cls = true → (e.client c).posted = (d.client c).posted + 1 ∧
      (e.client c).history = (({ cls := cls, code := code, unit := unit % 2 ^ 16, breath := d.breath, data := data } : EventRecord) ::
        (d.client c).history).take 4096 ∧
      ((d.client c).history.length < 4096 → (e.client c).lost = (d.client c).lost))) ∧
  (∀ (s : State) (client now : Nat), 1 ≤ client → client < 4 →
    ((s.dev.clientSa client = none ∨ s.dev.eventsOut client = true ∨ (s.dev.undelivered client 256).1 = []) →
      ∀ i ∈ ([.eventDelivery client now, .eventReoffer client now] : List Instr), Becomes i s { s.dev with now := now }) ∧
    (∀ sa x, s.dev.clientSa client = some sa → find s.dev.transport.sas sa = some x → s.dev.eventsOut client = false →
      s.dev.saActive sa = true → (s.dev.undelivered client 256).1 ≠ [] →
      ∀ i ∈ ([.eventDelivery client now, .eventReoffer client now] : List Instr), Runs i s fun d =>
        ∃ m, find d.transport.sent (sa * 2 ^ 32 + x.nextMsg) = some m ∧ m.type = 7 ∧
          m.packets = [(0, 0, ((s.dev.undelivered client 256).1.map EventRecord.bytes).flatten)] ∧
          m.purpose = .event client (s.dev.undelivered client 256).2)) ∧
  (∀ (d : Dev) (c n : Nat), (d.client c).lost ≠ 0 → ∃ l, (d.undelivered c n).1 =
    { cls := 5, code := 0xA3, unit := c, breath := d.breath, data := [b4 (d.client c).lost, b8 (d.client c).firstLost] } :: l) ∧
  (∀ (s : State) (now : Nat) (e : EventRecord),
    let n := s.dev.field 0x308 0 16
    let tail := s.dev.reg 0x30C
    2 ≤ n → tail < n → (tail + 1) % n ≠ s.dev.reg 0x310 → s.dev.reg 0x310 < n → bitOf (s.dev.reg 0x308) 16 = true → bitOf (s.dev.reg 0x308) 17 = false →
    s.dev.busMaster = true → (s.dev.client 0).lost = 0 → (s.dev.client 0).history = [e] → (s.dev.client 0).posted = (s.dev.client 0).delivered + 1 →
    Runs (.eventDelivery 0 now) s fun d => d.out = .hostWrite (s.dev.reg 0x300 + 32 * tail) e.bytes :: s.dev.out ∧
      d.reg 0x30C = (tail + 1) % n ∧ RegsKept s.dev d [0x30C] ∧ (d.client 0).delivered = (s.dev.client 0).posted) ∧
  (∀ (s : State) (client value : Nat),
    ((3 < client ∨ bitOf (s.dev.reg 0x308) 16 = true) → Idles (.evq0Enable client) s) ∧
    (client ≤ 3 → bitOf (s.dev.reg 0x308) 16 = false → Runs (.evq0Enable client) s fun d => bitOf (d.reg 0x308) 16 = true ∧
      d.reg 0x30C = 0 ∧ d.reg 0x310 = 0 ∧ RegsKept s.dev d [0x308, 0x30C, 0x310]) ∧
    (3 < client → Idles (.ctlEvq0HeadWrite client value) s) ∧
    (client ≤ 3 → bitOf (s.dev.reg 0x308) 16 = false → Runs (.ctlEvq0HeadWrite client value) s fun d =>
      d.reg 0x310 = value % 65536 ∧ RegsKept s.dev d [0x310] ∧ d.events = s.dev.events)) ∧
  (∀ s : State, Becomes .mgmtLinkUp s { s.dev with mgmt := { s.dev.mgmt with link := true } } ∧
    Becomes .mgmtLinkDown s { s.dev with mgmt := { s.dev.mgmt with link := false } }) ∧
  (∀ (s : State) (frame : Bytes) (ok : Bool) (now : Nat),
    ((s.dev.mgmt.link = false ∨ s.dev.field 0x500 0 1 = 0) → Becomes (.mgmtFrameRx frame ok now) s { s.dev with now := now }) ∧
    (s.dev.mgmt.link = true → s.dev.field 0x500 0 1 = 1 → s.dev.mgmtAccepts frame ok = false → Becomes (.mgmtFrameRx frame ok now) s
      (({ s.dev with now := now } : Dev).count 0x504)) ∧
    (Runs (.mgmtFrameRx frame ok now) s fun d => d = { s.dev with now := now, mgmt := d.mgmt, out := d.out, regs := d.regs } ∧
      RegsKept s.dev d [0x504] ∧ d.mgmt.queue = s.dev.mgmt.queue)) ∧
  (∀ (s : State) (now : Nat),
    (s.dev.mgmt.queue = [] → Becomes (.eventMirror now) s { s.dev with now := now }) ∧
    (s.dev.mgmt.queue ≠ [] → s.dev.mgmt.link = false → Runs (.eventMirror now) s fun d => d.mgmt.queue = s.dev.mgmt.queue.drop 32 ∧
      d.out = s.dev.out ∧ d.reg 0x504 = min (2 ^ 32 - 1) (s.dev.reg 0x504 + min 32 s.dev.mgmt.queue.length)) ∧
    (∀ n, s.dev.mgmt.queue ≠ [] → s.dev.mgmt.link = true → oneOfHundred 1000 now s.dev.mgmt.sent = some n → Runs (.eventMirror now) s fun d =>
      d.mgmt.queue = s.dev.mgmt.queue.drop 32 ∧ d.mgmt.sent = n ∧ d.regs = s.dev.regs ∧ ∃ b, d.out = .management b :: s.dev.out))

/-- The counter collector (R464 to R468): a freeze stops every counter and latches the totals, a resume lets them run, a write of CNT_VAL lands
at once, and a counter that wraps goes on, its overflow bit set with one event. -/
def Obligations.CountersFreezeAndWrap : Prop :=
  (∀ (s : State) (client now : Nat),
    let c := s.dev.counters
    (c.frozen = true → Idles (.cntFreeze client) s) ∧
    (c.frozen = false → Runs (.cntFreeze client) s fun d =>
      d.counters = { c with frozen := true, frozenBreath := s.dev.breath, latched := d.counters.latched } ∧ d.field 0xD00000 0 1 = 1 ∧
      (∀ a ∈ totalRegisters, d.totalRead a = s.dev.runningTotal a) ∧ RegsKept s.dev d [0xD00000, 0x318] ∧
      NewestEvent s.dev d Cls.control 0x91 0 [b1 0, b8 s.dev.breath]) ∧
    (Runs (.cntResume client) s fun d => d.counters = { c with frozen := false, latched := [] } ∧ d.field 0xD00000 0 1 = 0 ∧
      (∀ a ∈ totalRegisters, d.totalRead a = s.dev.runningTotal a) ∧ RegsKept s.dev d [0xD00000] ∧
      d = { s.dev with counters := d.counters, regs := d.regs }) ∧
    (Runs (.freezeEdge client now) s fun d => d.counters = { c with freezeArm := some now } ∧ d.field 0xD00000 1 1 = 1 ∧
      RegsKept s.dev d [0xD00000] ∧ d = { s.dev with now := now, counters := d.counters, regs := d.regs }) ∧
    (Runs (.resumeEdge client now) s fun d => d.counters = { c with resumeArm := some now } ∧ d.field 0xD00000 2 1 = 1 ∧
      RegsKept s.dev d [0xD00000] ∧ d = { s.dev with now := now, counters := d.counters, regs := d.regs }) ∧
    (Runs (.clearAll client) s fun d => (∀ n < 96, d.reg (0xD00108 + 16 * n) = 0) ∧ d.reg 0xD00040 = 0 ∧ d.reg 0xD00048 = 0 ∧
      RegsKept s.dev d ([0xD00040, 0xD00048] ++ (List.range 96).map fun n => 0xD00108 + 16 * n) ∧ d = { s.dev with regs := d.regs })) ∧
  (∀ (s : State) (client n v : Nat), n < 96 →
    Runs (.cntValWrite client n v) s fun d =>
      d.reg (0xD00108 + 16 * n) = v % 2 ^ 48 ∧ RegsKept s.dev d [0xD00108 + 16 * n] ∧ d = { s.dev with regs := d.regs }) ∧
  (∀ (s : State) (n amount : Nat), n < 96 →
    let value := s.dev.field (0xD00108 + 16 * n) 0 48 + amount
    let ovf := 0xD00040 + 8 * (n / 64)
    (s.dev.counters.frozen = true → Idles (.cntOverflow n amount) s) ∧
    (s.dev.counters.frozen = false → value < 2 ^ 48 → Runs (.cntOverflow n amount) s fun d =>
      d.reg (0xD00108 + 16 * n) = value ∧ RegsKept s.dev d [0xD00108 + 16 * n] ∧ d = { s.dev with regs := d.regs }) ∧
    (s.dev.counters.frozen = false → 2 ^ 48 ≤ value → Runs (.cntOverflow n amount) s fun d =>
      d.reg (0xD00108 + 16 * n) = value % 2 ^ 48 ∧ d.field ovf (n % 64) 1 = 1 ∧ RegsKept s.dev d [0xD00108 + 16 * n, ovf, 0x318] ∧
      (s.dev.field ovf (n % 64) 1 = 0 → NewestEvent s.dev d Cls.control 0x90 n [b8 s.dev.breath]) ∧
      (s.dev.field ovf (n % 64) 1 = 1 → d = { s.dev with regs := d.regs }))) ∧
  (∀ (d : Dev) (edge i : Nat) (r : Region) (frozen : Bool),
    let div := d.field 0xD00000 16 16
    (∀ t, d.counters.freezeArm = some t → d.counters.resumeArm = none → d.counters.frozen = false →
      (t + 2000000 ≤ edge → (d.edgeFreeze edge).counters.frozen = true ∧ (d.edgeFreeze edge).counters.freezeArm = none ∧
        (d.edgeFreeze edge).field 0xD00000 1 1 = 0) ∧
      (edge < t + 2000000 → d.edgeFreeze edge = d)) ∧
    ((div = 0 ∨ d.breath % div ≠ 0 ∨ d.reg 0xD00010 < 256) → d.snapshot frozen = d) ∧
    (div ≠ 0 → d.breath % div = 0 → d.bufferRegion (d.reg 0xD00010) = some (i, r) → 832 ≤ r.length → d.counters.snapWritten < 100000 →
      (d.snapshot frozen).counters = { d.counters with
        snapIndex := (d.counters.snapIndex + 1) % (r.length / 832), snapWritten := d.counters.snapWritten + 1 } ∧
      (∃ y, find (d.snapshot frozen).memory.regions i = some y ∧
        readBytes y.mem (d.counters.snapIndex % (r.length / 832) * 832) 832 = d.snapshotRecord frozen) ∧
      (∀ j, j ≠ i → find (d.snapshot frozen).memory.regions j = find d.memory.regions j) ∧ (d.snapshot frozen).regs = d.regs) ∧
    (div ≠ 0 → d.breath % div = 0 → 256 ≤ d.reg 0xD00010 → d.bufferRegion (d.reg 0xD00010) = none →
      (d.snapshot frozen).reg 0xD00018 = min (2 ^ 32 - 1) (d.reg 0xD00018 + 1) ∧ (d.snapshot frozen).memory = d.memory))

/-- What an uncorrectable word does (R485): it is counted and posted with its store, and the store's action is taken: the slice, chanter or
lane is fenced, the steward restarts, the cached entry is read again, the replay entry goes and the SA's floor rises, the bytes read as zero. -/
def Obligations.MemoryErrorsAreContained : Prop :=
  (∀ (s : State) (store unit addr now : Nat),
    (store = 1 ∨ store = 6 ∨ store = 9 ∨ store = 10 ∨ store = 12 ∨ store = 15 ∨ store = 7 ∧ unit < 2) →
    Runs (.memoryUe store unit addr [] now) s fun d => d.reg 0x320 = min (2 ^ 32 - 1) (s.dev.reg 0x320 + 1) ∧ RegsKept s.dev d [0x320, 0x318] ∧
      NewestEvent s.dev d Cls.control 0xA1 store [b4 unit, b8 addr, b1 (Config.memoryAction store unit)] ∧
      d.chanters = s.dev.chanters ∧ d.memory = s.dev.memory ∧ d.stripes = s.dev.stripes ∧ d.front = s.dev.front) ∧
  (∀ (s : State) (unit addr now : Nat),
    (unit < 8 → Runs (.memoryUe 1 unit addr [] now) s fun d => unit ∈ d.switch.slicesFenced ∧
      (∀ n ∈ s.dev.switch.slicesFenced, n ∈ d.switch.slicesFenced) ∧ d.switch.queues = s.dev.switch.queues) ∧
    (unit < 48 → unit ∉ s.dev.chanters.fenced → (∀ t ∈ s.dev.chanters.threads, t.1 / 8 ≠ unit) →
      Runs (.memoryUe 2 unit addr [] now) s fun d => d.chanters = { s.dev.chanters with fenced := unit :: s.dev.chanters.fenced } ∧
        NewestEvent s.dev d Cls.control 0xA1 2 [b4 unit, b8 addr, b1 (Config.memoryAction 2 unit)]) ∧
    (unit < 32 → unit ∉ s.dev.compression.fenced → s.dev.chanters.threads = [] → Runs (.memoryUe 3 unit addr [] now) s fun d =>
      d.compression = { s.dev.compression with fenced := unit :: s.dev.compression.fenced } ∧
      NewestEvent s.dev d Cls.control 0xA1 3 [b4 unit, b8 addr, b1 (Config.memoryAction 3 unit)]) ∧
    (unit < 96 → unit ∉ s.dev.cipher.fenced → s.dev.chanters.threads = [] → Runs (.memoryUe 4 unit addr [] now) s fun d =>
      d.cipher = { s.dev.cipher with fenced := unit :: s.dev.cipher.fenced } ∧
      NewestEvent s.dev d Cls.control 0xA1 4 [b4 unit, b8 addr, b1 (Config.memoryAction 4 unit)]) ∧
    (unit < 8 → s.dev.control.halted = false → Runs (.memoryUe 6 unit addr [] now) s fun d => unit ∈ d.control.stewardsRestarting) ∧
    (Runs (.memoryUe 7 0 addr [] now) s fun d => addr ∉ d.transport.saCache ∧
      (∀ x ∈ s.dev.transport.saCache, x ≠ addr → x ∈ d.transport.saCache) ∧ d.transport.sas = s.dev.transport.sas) ∧
    (Runs (.memoryUe 7 1 addr [] now) s fun d => addr ∉ d.transport.reedCache ∧ d.transport.reeds = s.dev.transport.reeds) ∧
    (∀ r, find s.dev.memory.regions unit = some r → Runs (.memoryUe 14 unit addr [] now) s fun d =>
      (∃ y, find d.memory.regions unit = some y ∧ readBytes y.mem (addr / 4 * 4) 4 = zeros 4 ∧
        (∀ a, a < addr / 4 * 4 ∨ addr / 4 * 4 + 4 ≤ a → readByte y.mem a = readByte r.mem a)) ∧
      (∀ k, k ≠ unit → find d.memory.regions k = find s.dev.memory.regions k) ∧
      NewestEvent s.dev d Cls.control 0xA1 14 [b4 (s.dev.currentKey unit), b8 addr, b1 (Config.memoryAction 14 unit)])) ∧
  (∀ (s : State) (store n : Nat),
    Idles (.eccScrub store 0) s ∧
    (n ≠ 0 → Runs (.eccScrub store n) s fun d => d.reg 0x31C = min (2 ^ 32 - 1) (s.dev.reg 0x31C + n) ∧ RegsKept s.dev d [0x31C] ∧
      find d.protection.corrected store = some ((find s.dev.protection.corrected store).getD 0 + n) ∧
      (∀ k, k ≠ store → find d.protection.corrected k = find s.dev.protection.corrected k) ∧
      d = { s.dev with protection := d.protection, regs := d.regs }))

/-- Start-up (R420, R436, R437, R476, R486 to R491, R502): the phases follow one another, each on its own condition; a save ends in a reset that
keeps what save-flash and the dump hold; and claims settle who owns each set. -/
def Obligations.StartUpPhases : Prop :=
  (∀ (s : State) (ms joules : Nat),
    let p := s.dev.power
    (p.saving = none → Idles (.saveComplete ms joules) s ∧ Idles (.holdupExhausted ms joules) s) ∧
    (p.saving ≠ none → Runs (.saveComplete ms joules) s fun d => d.startUp.phase = 0 ∧ d.power.saving = none ∧ d.power.lastSave = 1 ∧
      d.power.savedMs = ms ∧ d.power.savedJ = joules ∧ d.power.saveReport = true ∧
      (p.nextSlot = true → d.power.dumpA = p.dumpA ∧ ∀ x, p.dumpB = some x → d.power.dumpB = some { x with complete := true }) ∧
      (p.nextSlot = false → d.power.dumpB = p.dumpB ∧ ∀ x, p.dumpA = some x → d.power.dumpA = some { x with complete := true }) ∧
      p.persistBreath ≤ d.grid.breath ∧ s.dev.breath ≤ d.grid.breath ∧ d.stripes = s.dev.stripes ∧ d.chanters.programs = s.dev.chanters.programs ∧
      d.chanters.bindings = s.dev.chanters.bindings ∧ d.chanters.threads = [] ∧ d.control.gen = s.dev.control.gen ∧ d.control.txns = [] ∧
      d.counters = {} ∧ (∀ c < 4, d.client c = {}) ∧ d.reg 0x404 = s.dev.reg 0x404 ∧ d.reg 0x40 = s.dev.reg 0x40 ∧
      (∀ a, a ≠ 0x404 → a ≠ 0x40 → d.reg a = resetWordAt a) ∧ d.transport.sas.map Prod.fst = s.dev.transport.sas.map Prod.fst ∧
      (∀ x ∈ d.transport.sas, x.2.state = .enrolled) ∧ (∀ w ∈ d.memory.windows, w.2.mode = .disarmed ∧ w.2.firstBreath = 0) ∧
      (∀ r ∈ d.memory.regions, r.2.mem = []) ∧ (∀ k, k ∈ d.cipher.keys ↔ k ∈ s.dev.cipher.keys ∧ k.2.life = .live)) ∧
    (p.saving ≠ none → Runs (.holdupExhausted ms joules) s fun d => d.startUp.phase = 0 ∧ d.power.saving = none ∧ d.power.lastSave = 2 ∧
      d.power.dumpA = p.dumpA ∧ d.power.dumpB = p.dumpB ∧ d.power.saveReport = true) ∧
    (p.thermal = true → p.saving = none → Becomes .thermalRestart s { s.dev with power := { p with
      thermal := false, inlet := if p.seated = true ∧ p.inWindow = true then .delay else .wait } }) ∧
    ((p.thermal = false ∨ p.saving ≠ none) → Idles .thermalRestart s)) ∧
  (∀ (s : State) (level : Nat) (failed : List Nat),
    let u := s.dev.startUp
    let p := s.dev.power
    (p.inlet = .on → u.fail ≠ 1 → u.fail ≠ 2 → p.saving = none → Idles .standbyPowerUp s) ∧
    (p.saving = none → (p.inlet ≠ .on ∨ u.fail = 1 ∨ u.fail = 2) → Runs .standbyPowerUp s fun d => d.startUp.phase = 0 ∧
      d.startUp.fail = 0 ∧ d.startUp.slot = none ∧ d.power.seated = p.seated ∧ d.stripes = s.dev.stripes) ∧
    (u.phase = 0 → u.fail = 0 → p.inlet = .on → p.thermal = false →
      Becomes (.slotPinRead level) s { s.dev with startUp := { u with slot := some (level % 2), phase := 1 } }) ∧
    ((u.phase ≠ 0 ∨ u.fail ≠ 0 ∨ p.inlet ≠ .on ∨ p.thermal = true) → Idles (.slotPinRead level) s) ∧
    (u.phase = 0 → p.inlet = .on → Becomes .slotPinTimeout s { s.dev with startUp := { u with fail := 1 } }) ∧
    ((u.phase ≠ 0 ∨ p.inlet ≠ .on) → Idles .slotPinTimeout s) ∧
    (∀ slot, u.slot = some slot → Runs (.slotPinChange level) s fun d => OnlyEvents s.dev d ∧
      NewestEvent s.dev d Cls.control 0xA4 0 [b1 (level % 2), b1 slot]) ∧
    (u.slot = none → Idles (.slotPinChange level) s) ∧
    (u.phase = 1 → u.fail = 0 → Becomes (.bellTrainingDone failed) s { s.dev with startUp :=
      if failed = [] then { u with phase := 2 } else { u with fail := 2 } }) ∧
    ((u.phase ≠ 1 ∨ u.fail ≠ 0) → Idles (.bellTrainingDone failed) s)) ∧
  (∀ s : State, s.dev.startUp.phase ≠ 3 → Idles .restoreDone s) ∧
  (∀ s : State, s.dev.startUp.phase = 3 → s.dev.front.sqs = [] → s.dev.front.cqs = [] → Runs .restoreDone s fun d =>
    d.startUp.phase = 4 ∧ d.cipher = { s.dev.cipher with kskEpoch := s.dev.cipher.kskEpoch + 1 } ∧ d.power.saveReport = false ∧
    (s.dev.power.bestDump = none → d.startUp.claimed = [] ∧ d.startUp.dumpUsed = false ∧ d.grid = s.dev.grid) ∧
    (∀ x, s.dev.power.bestDump = some x → d.startUp.dumpUsed = true ∧ d.grid = { s.dev.grid with breath := max s.dev.breath x.breath } ∧
      ∀ n, n ∈ d.startUp.claimed ↔ n < 16 ∧ bitOf x.owned n = true ∧ ∃ t, find s.dev.stripes.sets n = some t)) ∧
  (∀ (s : State) (k : Nat) (q : Sq), s.dev.startUp.phase = 3 → s.dev.front.sqs = [(k, q)] → s.dev.front.cqs = [] → k < 32768 →
    q.place = .host → q.fenced = false → q.client < 4 → s.dev.power.bestDump = none → Runs .restoreDone s fun d =>
      (∃ y, find d.front.sqs k = some y ∧ y.fenced = true) ∧ NewestEventTo s.dev d q.client Cls.queue 0x03 k [b1 0, b1 3, b4 q.head]) ∧
  (∀ (s : State) (slot owned dump breath now n : Nat) (t : StripeSet),
    let mine := n ∈ s.dev.startUp.claimed
    s.dev.peer.linkUp = true → s.dev.peer.pairKey ≠ none → slot ≠ s.dev.slot → s.dev.startUp.phase = 4 → s.dev.startUp.settled = false →
    s.dev.stripes.sets = [(n, t)] → s.dev.peer.sets = [] → n < 16 → (s.dev.startUp.claimed = [] ∨ s.dev.startUp.claimed = [n]) →
      Runs (.claim slot owned dump breath now) s fun d => d.startUp.settled = true ∧ d.grid.breath = max s.dev.breath breath ∧
        (d.startUp.claimConflict = true ↔ s.dev.startUp.claimConflict = true ∨ mine ∧ bitOf owned n = true) ∧
        ((∃ y, find d.stripes.sets n = some y ∧ y.owner = s.dev.slot ∧ y.recovering = true ∧ n ∈ d.startUp.claimed) ∨
          n ∉ d.startUp.claimed ∧ ∀ y, find d.stripes.sets n = some y → y.owner ≠ s.dev.slot) ∧
        ((∃ y, find d.stripes.sets n = some y ∧ y.owner = s.dev.slot) ↔
          mine ∧ bitOf owned n = false ∨
          mine ∧ bitOf owned n = true ∧ (dump < s.dev.dumpBreath ∨ dump = s.dev.dumpBreath ∧ t.home = s.dev.slot) ∨
          ¬ mine ∧ bitOf owned n = false ∧ t.home = s.dev.slot)) ∧
  (∀ (s : State) (slot owned dump breath now : Nat),
    (s.dev.peer.linkUp = false ∨ s.dev.peer.pairKey = none ∨ slot = s.dev.slot ∨ s.dev.startUp.phase < 4) →
      Becomes (.claim slot owned dump breath now) s { s.dev with now := now }) ∧
  (∀ (s : State) (labels : List (Nat × Nat)) (now : Nat),
    ((s.dev.startUp.phase ≠ 4 ∨ s.dev.startUp.settled = true) → Becomes (.peerWaitTimeout labels now) s { s.dev with now := now }) ∧
    (∀ n t, s.dev.startUp.phase = 4 → s.dev.startUp.settled = false → s.dev.stripes.sets = [(n, t)] → s.dev.peer.sets = [] → n < 16 →
      Runs (.peerWaitTimeout labels now) s fun d => d.startUp.settled = true ∧ d.startUp.peerUnreached = s.dev.peer.aliveIn ∧
        d.peer.state = .absent ∧ ∃ y, find d.stripes.sets n = some y ∧
        (y.owner = if n ∈ s.dev.startUp.claimed ∨ s.dev.peer.aliveIn = false ∧ (∃ l ∈ labels, l.1 = n ∧ l.2 % 2 ≠ s.dev.slot)
          then s.dev.slot else 2)))

/-- A step with a command at the front of the queue is that command carried out with the queue's rest; with no command waiting the module
idles (the model's choice, log entry 2). Every command answers a next state and leaves the queue as it is. -/
def Obligations.StepRunsTheFrontCommand : Prop :=
  (∀ (c : Instr) (s : State), step { s with pending := c :: s.pending } = exec c s) ∧
  (∀ s : State, s.pending = [] → step s = .next s) ∧
  (∀ (c : Instr) (s : State), ∃ d, exec c s = .next { s with dev := d })

/-- The machine right after reset: an empty queue, phase INLET, breath 0 in FREERUN, every register at its reset word, no port up, no event
posted, nothing stored, and its stores in canonical form (R9, R34, R486). -/
def Obligations.ResetLeavesEveryStoreEmpty : Prop :=
  let d := State.reset.dev
  State.reset.pending = [] ∧ Canonical d ∧ d.startUp.phase = 0 ∧ d.grid.breath = 0 ∧ d.grid.mode = .freerun ∧
  (∀ a, d.reg a = resetWordAt a) ∧ (∀ p, (d.port p).up = false) ∧ (∀ c, (d.client c).history = []) ∧ d.memory.regions = [] ∧
  d.front.flight = [] ∧ d.chanters.threads = [] ∧ d.stripes.sets = [] ∧ d.out = []

/-- Every step keeps the stores in their canonical form, from every state in which they have it: the register file and the region table with
rising keys, no register listed at its reset word, and each buffer region's bytes strictly rising with no zero byte listed. -/
def Obligations.EveryStepKeepsTheStoresCanonical : Prop :=
  ∀ (s t : State), Canonical s.dev → step s = .next t → Canonical t.dev

/-- Gullot words (R187, R189): the word of every listed instruction, with every field at every value its format admits, decodes to that
instruction and no other, and every 32-bit word that decodes is the word of a well-formed instruction, so no bit of a word is dropped
(but for `jr`, whose gd field has no use). -/
def Obligations.GullotWordsDecodeAndEncode : Prop :=
  (∀ i : Gullot, i.wellFormed = true → Gullot.decode i.encode = some i ∧ i.encode < 2 ^ 32) ∧
  (∀ (w : Nat) (i : Gullot), w < 2 ^ 32 → Gullot.decode w = some i → i.wellFormed = true ∧ ((∀ g, i ≠ .jr g) → i.encode = w))
end

