-- ==== Sys2Proof/Laws/Bytes.lean ====
section
/-! SUPPORT. A buffer's sparse memory (R89): what a byte reads as after a write, and that every write keeps the one canonical form. -/

namespace Sys2Proof.Machine

/-- A little-endian byte string spells its number's low bytes. -/
theorem leNat_leBytes (n : Nat) : ∀ v, leNat (leBytes n v) = v % 256 ^ n := by
  induction n with
  | zero => intro v; simp [leBytes, leNat, Nat.mod_one]
  | succ n ih =>
    intro v
    have h : (BitVec.ofNat 8 v).toNat = v % 256 := by simp [BitVec.toNat_ofNat]
    rw [leBytes, leNat, h, ih, Nat.pow_succ', Nat.mod_mul]

theorem beNat_beBytes (n v : Nat) : beNat (beBytes n v) = v % 256 ^ n := by
  rw [beNat, beBytes, List.reverse_reverse, leNat_leBytes]

@[simp] theorem length_leBytes (n : Nat) : ∀ v, (leBytes n v).length = n := by
  induction n with
  | zero => intro v; rfl
  | succ n ih => intro v; simp [leBytes, ih]

/-- An address that nothing has written reads as zero. -/
@[simp] theorem readByte_nil (a : Nat) : readByte [] a = 0 := rfl

/-- The byte written reads back; every other address keeps its byte. -/
theorem readByte_writeByte (m : List Host.Cell) (a x : Nat) (b : Byte) :
    readByte (writeByte m a b) x = if x = a then b else readByte m x := by
  unfold writeByte readByte
  split
  · rename_i h; subst h; rw [find_drop]; split <;> simp_all
  · rw [find_put]; split <;> simp_all

theorem memoryWf_iff (m : List Host.Cell) : memoryWf m = true ↔ rising m = true ∧ ∀ c ∈ m, c.2 ≠ emptyByte := by
  simp [memoryWf]

theorem memoryWf_nil : memoryWf [] = true := rfl

/-- Writing one byte keeps the canonical form. -/
theorem memoryWf_writeByte {m : List Host.Cell} (a : Nat) (b : Byte) (h : memoryWf m = true) : memoryWf (writeByte m a b) = true := by
  rw [memoryWf_iff] at h ⊢
  unfold writeByte
  split
  · refine ⟨rising_drop a h.1, ?_⟩
    intro c hc
    exact h.2 c (List.mem_filter.1 hc).1
  · rename_i hb
    refine ⟨rising_put a b h.1, ?_⟩
    intro c hc
    rcases mem_put hc with rfl | hc
    · exact hb
    · exact h.2 c hc

/-- Writing a byte string keeps the canonical form. -/
theorem memoryWf_writeBytes (b : Bytes) : ∀ {m : List Host.Cell} (a : Nat), memoryWf m = true → memoryWf (writeBytes m a b) = true := by
  induction b with
  | nil => intro m a h; exact h
  | cons x t ih => intro m a h; exact ih (a + 1) (memoryWf_writeByte a x h)

/-- Canonical memories that read alike are equal at every key. -/
theorem find_of_readByte {m n : List Host.Cell} (hm : memoryWf m = true) (hn : memoryWf n = true)
    (h : ∀ a, readByte m a = readByte n a) (a : Nat) : find m a = find n a := by
  rw [memoryWf_iff] at hm hn
  have := h a
  unfold readByte at this
  cases em : find m a with
  | none => cases en : find n a with
    | none => rfl
    | some y => rw [em, en] at this; exact absurd this.symm (hn.2 _ (mem_of_find en))
  | some x => cases en : find n a with
    | none => rw [em, en] at this; exact absurd this (hm.2 _ (mem_of_find em))
    | some y => rw [em, en] at this; simp at this; rw [this]

end Sys2Proof.Machine
end

