-- ==== Sys2Proof/Laws/Events.lean ====
section
/-! SUPPORT. What posting an event does, said once: the histories, the lost-event count and the mirror's queue change, and nothing else; the
record stands newest with every client that hears its class (R478 to R484, R498). -/

namespace Sys2Proof.Machine

/-- One delivery touches only the histories and the lost-event count. -/
theorem deliverTo_only (d : Dev) (e : EventRecord) (c : Nat) : OnlyEvents d (d.deliverTo e c) := by
  unfold Dev.deliverTo
  split
  · dsimp only
    split
    · refine ⟨rfl, ?_⟩
      intro a h
      exact Dev.reg_setReg_ne d _ _ _ (by simpa using h)
    · exact ⟨rfl, fun _ _ => rfl⟩
  · exact ⟨rfl, fun _ _ => rfl⟩

theorem OnlyEvents.refl (d : Dev) : OnlyEvents d d := ⟨rfl, fun _ _ => rfl⟩

theorem OnlyEvents.trans {a b c : Dev} (h : OnlyEvents a b) (k : OnlyEvents b c) : OnlyEvents a c := by
  refine ⟨?_, fun x hx => (k.2 x hx).trans (h.2 x hx)⟩
  have h1 := h.1
  have k1 := k.1
  rw [k1, h1]

theorem foldl_deliverTo_only (e : EventRecord) (l : List Nat) : ∀ d : Dev, OnlyEvents d (l.foldl (fun d c => d.deliverTo e c) d) := by
  induction l with
  | nil => exact OnlyEvents.refl
  | cons c t ih => intro d; exact (deliverTo_only d e c).trans (ih _)

theorem mirror_only (d : Dev) (e : EventRecord) : OnlyEvents d (d.mirror e) := by
  unfold Dev.mirror
  split
  · exact ⟨rfl, fun _ _ => rfl⟩
  · exact OnlyEvents.refl d

/-- An event posted among some clients touches only what events touch. -/
theorem postAmong_only (d : Dev) (l : List Nat) (cls code unit : Nat) (data : List Item) :
    OnlyEvents d (d.postAmong l cls code unit data) := by
  unfold Dev.postAmong
  dsimp only
  split
  · exact OnlyEvents.refl d
  · exact (foldl_deliverTo_only _ _ d).trans (mirror_only _ _)

theorem post_only (d : Dev) (cls code unit : Nat) (data : List Item) : OnlyEvents d (d.post cls code unit data) :=
  postAmong_only d _ cls code unit data

theorem postTo_only (d : Dev) (c cls code unit : Nat) (data : List Item) : OnlyEvents d (d.postTo c cls code unit data) :=
  postAmong_only d _ cls code unit data

/-- Every register but CTL_EVENT_LOST keeps its word when an event is posted. -/
theorem post_reg (d : Dev) (cls code unit : Nat) (data : List Item) (a : Nat) (h : a ≠ 0x318) :
    (d.post cls code unit data).reg a = d.reg a := (post_only d cls code unit data).2 a (by simpa using h)

/-- Posting changes no mask: who hears a class stays the same. -/
theorem OnlyEvents.hears {a b : Dev} (h : OnlyEvents a b) (c cls : Nat) : b.hears c cls = a.hears c cls := by
  unfold Dev.hears
  rw [h.2 0x314 (by decide)]

theorem OnlyEvents.breath {a b : Dev} (h : OnlyEvents a b) : b.breath = a.breath := by
  have := h.1
  unfold Dev.breath
  rw [this]

/-- A record delivered to a client that hears it stands newest there; every other client's history is as it was. -/
theorem deliverTo_client (d : Dev) (e : EventRecord) (c k : Nat) :
    (d.deliverTo e c).client k = if k = c ∧ d.hears c e.cls = true then (d.client c).add e else d.client k := by
  unfold Dev.deliverTo
  by_cases hh : d.hears c e.cls = true
  · simp only [hh, if_true, and_true]
    unfold Dev.client
    dsimp only
    have count (b : Prop) [Decidable b] : (if b then d.count 0x318 else d).events = d.events := by split <;> rfl
    rw [count, find_put]
    split <;> simp_all
  · simp [hh]

theorem head_add (c : EventClient) (e : EventRecord) : (c.add e).history.head? = some e := by
  simp [EventClient.add]

/-- An event posted among some clients stands newest with each of them that hears its class. -/
theorem foldl_deliverTo_newest (e : EventRecord) (k : Nat) (l : List Nat) : ∀ d : Dev, d.hears k e.cls = true →
    (k ∈ l ∨ (d.client k).history.head? = some e) →
    ((l.foldl (fun d c => d.deliverTo e c) d).client k).history.head? = some e := by
  induction l with
  | nil => intro d _ h; simpa using h
  | cons c t ih =>
    intro d hh h
    refine ih _ (by rw [(deliverTo_only d e c).hears]; exact hh) ?_
    by_cases hc : k = c
    · subst hc; right; rw [deliverTo_client]; simp [hh, head_add]
    · rcases h with h | h
      · rcases List.mem_cons.1 h with h | h
        · exact absurd h hc
        · exact .inl h
      · right; rw [deliverTo_client]; simpa [hc] using h

theorem mirror_client (d : Dev) (e : EventRecord) (k : Nat) : (d.mirror e).client k = d.client k := by
  unfold Dev.mirror
  split <;> rfl

/-- A posted event stands newest with every client named that hears its class. -/
theorem postAmong_newest (d : Dev) (l : List Nat) (cls code unit : Nat) (data : List Item) (k : Nat) (hk : k ∈ l)
    (hh : d.hears k cls = true) :
    ((d.postAmong l cls code unit data).client k).history.head? =
      some { cls := cls, code := code, unit := unit % 2 ^ 16, breath := d.breath, data := data } := by
  have hm : k ∈ l.filter fun c => d.hears c cls := List.mem_filter.2 ⟨hk, hh⟩
  unfold Dev.postAmong
  dsimp only
  split
  · rename_i h; rw [List.isEmpty_iff.1 h] at hm; simp at hm
  · rw [mirror_client]; exact foldl_deliverTo_newest _ k _ d hh (.inl hm)

theorem post_newest (d : Dev) (cls code unit : Nat) (data : List Item) : NewestEvent d (d.post cls code unit data) cls code unit data :=
  fun c hc hh => postAmong_newest d _ cls code unit data c (by simp; omega) hh

theorem postTo_newest (d : Dev) (c cls code unit : Nat) (data : List Item) :
    NewestEventTo d (d.postTo c cls code unit data) c cls code unit data :=
  fun hh => postAmong_newest d _ cls code unit data c (by simp) hh

end Sys2Proof.Machine
end

