-- ==== Sys2Proof/Laws/Units.lean ====
section
/-! SUPPORT. One unit changed: what each bay, channel, port, set, window, namespace, SA and queue reads after a change of one of them, and
what a thread's registers read after one is written. -/

namespace Sys2Proof.Machine

variable (d : Dev)

theorem Dev.bay_onBay (n m : Nat) (f : Bay → Bay) : (d.onBay n f).bay m = if m = n then f (d.bay n) else d.bay m := by
  unfold Dev.onBay
  change (find (put d.bays n (f (d.bay n))) m).getD {} = _
  rw [find_put]
  split
  · rfl
  · rfl

theorem Dev.channel_onChannel (n m : Nat) (f : BayChannel → BayChannel) :
    (d.onChannel n f).channel m = if m = n then f (d.channel n) else d.channel m := by
  change (find (put d.power.bays n (f (d.channel n))) m).getD {} = _
  rw [find_put]
  split
  · rfl
  · rfl

theorem Dev.port_onPort (n m : Nat) (f : Port → Port) : (d.onPort n f).port m = if m = n then f (d.port n) else d.port m := by
  change (find (put d.transport.ports n (f (d.port n))) m).getD {} = _
  rw [find_put]
  split
  · rfl
  · rfl

theorem Dev.sets_onSet (n m : Nat) (f : StripeSet → StripeSet) :
    find (d.onSet n f).stripes.sets m = if m = n then (find d.stripes.sets n).map f else find d.stripes.sets m := find_alter _ n m f

theorem Dev.windows_onWindow (n m : Nat) (f : Window → Window) :
    find (d.onWindow n f).memory.windows m = if m = n then (find d.memory.windows n).map f else find d.memory.windows m :=
  find_alter _ n m f

theorem Dev.namespaces_onNs (n m : Nat) (f : Namespace → Namespace) :
    find (d.onNs n f).stripes.namespaces m = if m = n then (find d.stripes.namespaces n).map f else find d.stripes.namespaces m :=
  find_alter _ n m f

theorem Dev.sas_onSa (n m : Nat) (f : Sa → Sa) :
    find (d.onSa n f).transport.sas m = if m = n then (find d.transport.sas n).map f else find d.transport.sas m := find_alter _ n m f

theorem Dev.sqs_onSq (n m : Nat) (f : Sq → Sq) :
    find (d.onSq n f).front.sqs m = if m = n then (find d.front.sqs n).map f else find d.front.sqs m := find_alter _ n m f

theorem Dev.cqs_onCq (n m : Nat) (f : Cq → Cq) :
    find (d.onCq n f).front.cqs m = if m = n then (find d.front.cqs n).map f else find d.front.cqs m := find_alter _ n m f

theorem Dev.threads_onThread (n m : Nat) (f : Activation → Activation) :
    find (d.onThread n f).chanters.threads m =
      if m = n then (find d.chanters.threads n).map f else find d.chanters.threads m := find_alter _ n m f

/-- g0 reads as 0 whatever was written. -/
@[simp] theorem Activation.reg_zero (a : Activation) : a.reg 0 = 0 := rfl

/-- A general register written reads back its low 64 bits, g0 excepted; every other register keeps its value. -/
theorem Activation.reg_setReg (a : Activation) (n v m : Nat) :
    (a.setReg n v).reg m = if m = n ∧ n ≠ 0 then v % 2 ^ 64 else a.reg m := by
  unfold Activation.setReg
  by_cases h0 : n = 0
  · simp [h0]
  · simp only [h0, if_false, ne_eq, not_false_eq_true, and_true]
    by_cases hm : m = 0
    · subst hm; simp [Activation.reg, Ne.symm h0]
    · by_cases hv : v % 2 ^ 64 = 0
      · simp only [hv, if_true]
        simp only [Activation.reg, hm, if_false, find_drop]
        split <;> simp_all
      · simp only [hv, if_false]
        simp only [Activation.reg, hm, if_false, find_put]
        split <;> simp_all

end Sys2Proof.Machine
end

