-- ==== Sys2Proof/WellFormed.lean ====
section
/-! DEFINITION. Well-formed commands: every operand in the range the spec gives it: unit numbers (the identifiers of the scope chapter),
the limits of the module (the table of capacities), 64-byte entries (R112) and Gullot fields (R187). A meaning answers on any operands;
well-formedness says which of them the outside world can send. -/

namespace Sys2Proof

open Sys2Proof.Machine

namespace WellFormed

/-- A number below a limit. -/
def below (limit n : Nat) : Bool := decide (n < limit)

/-- A number from 1 up to a last one: namespaces and queues. -/
def numbered (last n : Nat) : Bool := decide (1 ≤ n) && decide (n ≤ last)

/-- The key of a queue: 1 to 16,384, or that of a client's mouthpiece. -/
def aQueue (key : Nat) : Bool := numbered 16384 key || (decide (32768 ≤ key) && decide (key < 32772))

/-- A command entry of 64 bytes on a queue, or on the queue of the partner's forwarded commands, brought by an SA. -/
def anEntry (c : Submit) : Bool := (aQueue c.sq || c.sq == 40000) && c.entry.length == 64 && below 16384 c.sa

/-- A frame that a port delivers: the port's number, at least an Ethernet header. -/
def aFrame (f : Frame) : Bool := below 260 f.port && decide (14 ≤ f.bytes.length)

end WellFormed

open WellFormed in
/-- Every operand of a command has a value that the spec admits. [log 117: DESIGN CHOICE] -/
def Instr.wellFormed : Instr → Bool
  | .breathEdge => true
  | .reseed c => anEntry c
  | .ptpSync _ => true
  | .ptpSyncTimeout => true
  | .syncInPulse _ _ => true
  | .syncInTimeout => true
  | .ppsPulse _ _ => true
  | .ppsTimeout => true
  | .ref10mLoss => true
  | .ref10mQualify _ => true
  | .peerTimeTimeout => true
  | .revertHoldExpiry => true
  | .timeInputReject _ => true
  | .crossingReadTimeout _ => true
  | .crossingWriteDrop block => below 40 block
  | .crossingWriteLand block _ => below 40 block
  | .xingFlush _ => true
  | .registerWrite _ _ _ _ => true
  | .dataWriteRx f => aFrame f
  | .readReqRx f => aFrame f
  | .readRespRx f => aFrame f
  | .capsuleRx f => aFrame f
  | .responseRx f => aFrame f
  | .ackRx f => aFrame f
  | .nackRx f => aFrame f
  | .eventRx f => aFrame f
  | .fetchComplete _ sa _ _ => below 16384 sa
  | .fetchBufferTimeout _ => true
  | .ackDelayExpiry sa => below 16384 sa
  | .retxTimer sa msgId pkt => below 16384 sa && below (2 ^ 32) msgId && below 64 pkt
  | .responseReoffer cq => aQueue cq
  | .replayEntryExpire _ => true
  | .replayHorizonShort => true
  | .authFail sa => below 16384 sa
  | .kexInit f => aFrame f
  | .kexReject port => below 260 port
  | .kexNonceExpire sa _ => below 16384 sa
  | .keyPhaseOldExpire sa => below 16384 sa
  | .portUp port => below 260 port
  | .portDown port => below 260 port
  | .opticsSample port _ _ _ => below 260 port
  | .opticsSampleTimeout port => below 260 port
  | .portOpticsFault _ _ => true
  | .portMacFault port => below 260 port
  | .portDropSummary port => below 260 port
  | .neighbourRequest f _ => aFrame f
  | .regionRegister c => anEntry c
  | .regionRevoke c => anEntry c
  | .revokeDrainDone _ _ => true
  | .windowCreate c => anEntry c
  | .windowArm c => anEntry c
  | .windowDisarm c => anEntry c
  | .windowDelete c => anEntry c
  | .windowRefuseSummary window => below 1024 window
  | .plCopyRx _ => true
  | .plCopyAck window _ sa msgId pkt => below 1024 window && below 16384 sa && below (2 ^ 32) msgId && below 64 pkt
  | .sqPoll sq _ => aQueue sq
  | .hostReadCompletion _ _ _ => true
  | .cplTimeout _ => true
  | .tagQuarantineEnd _ => true
  | .chainDrain cq _ => aQueue cq
  | .stallLimit cq _ => aQueue cq
  | .mp0Enable _ _ => true
  | .cqCreate c => anEntry c
  | .sqCreate c => anEntry c
  | .sqModify c => anEntry c
  | .sqDelete c => anEntry c
  | .sqDeleteDone sq => aQueue sq
  | .cqDelete c => anEntry c
  | .queueReset c => anEntry c
  | .read c => anEntry c
  | .write c => anEntry c
  | .deallocate c => anEntry c
  | .abort c => anEntry c
  | .txnBegin c => anEntry c
  | .txnCommit c => anEntry c
  | .txnRollback c => anEntry c
  | .txnExpired client _ => below 4 client
  | .getLog c => anEntry c
  | .tune c => anEntry c
  | .saCreate c => anEntry c
  | .saDelete c => anEntry c
  | .rctxCreate c => anEntry c
  | .rctxDelete c => anEntry c
  | .nsCreate c => anEntry c
  | .nsDelete c => anEntry c
  | .nsReleased nsid => numbered 4096 nsid
  | .setCreate c => anEntry c
  | .setReady set => below 16 set
  | .setDelete c => anEntry c
  | .setReshape c => anEntry c
  | .spareAssign c => anEntry c
  | .programLoad c => anEntry c
  | .programBind c => anEntry c
  | .programUnload c => anEntry c
  | .keyInstall c => anEntry c
  | .keyDestroy c => anEntry c
  | .keyDestroyed _ => true
  | .fwStage c => anEntry c
  | .fwActivate c => anEntry c
  | .fwSlotWriteDone _ => true
  | .fwActivated _ => true
  | .fwSlotRetry _ => true
  | .schedSet c => anEntry c
  | .regRead c => anEntry c
  | .regWrite c => anEntry c
  | .commandDispatch thread _ => below 384 thread
  | .windowCommitStart thread _ => below 384 thread
  | .earlyCunitStart thread window _ _ => below 384 thread && below 1024 window
  | .add thread d a b => below 384 thread && (Gullot.alu .add d a b).wellFormed
  | .sub thread d a b => below 384 thread && (Gullot.alu .sub d a b).wellFormed
  | .and thread d a b => below 384 thread && (Gullot.alu .and d a b).wellFormed
  | .or thread d a b => below 384 thread && (Gullot.alu .or d a b).wellFormed
  | .xor thread d a b => below 384 thread && (Gullot.alu .xor d a b).wellFormed
  | .not thread d a => below 384 thread && (Gullot.alu .not d a 0).wellFormed
  | .sll thread d a b => below 384 thread && (Gullot.alu .sll d a b).wellFormed
  | .srl thread d a b => below 384 thread && (Gullot.alu .srl d a b).wellFormed
  | .sra thread d a b => below 384 thread && (Gullot.alu .sra d a b).wellFormed
  | .slt thread d a b => below 384 thread && (Gullot.alu .slt d a b).wellFormed
  | .sltu thread d a b => below 384 thread && (Gullot.alu .sltu d a b).wellFormed
  | .mul thread d a b => below 384 thread && (Gullot.alu .mul d a b).wellFormed
  | .mulhu thread d a b => below 384 thread && (Gullot.alu .mulhu d a b).wellFormed
  | .divu thread d a b => below 384 thread && (Gullot.alu .divu d a b).wellFormed
  | .remu thread d a b => below 384 thread && (Gullot.alu .remu d a b).wellFormed
  | .pcnt thread d a => below 384 thread && (Gullot.alu .pcnt d a 0).wellFormed
  | .ctz thread d a => below 384 thread && (Gullot.alu .ctz d a 0).wellFormed
  | .clz thread d a => below 384 thread && (Gullot.alu .clz d a 0).wellFormed
  | .addi thread d a imm => below 384 thread && (Gullot.imm .addi d a imm).wellFormed
  | .andi thread d a imm => below 384 thread && (Gullot.imm .andi d a imm).wellFormed
  | .ori thread d a imm => below 384 thread && (Gullot.imm .ori d a imm).wellFormed
  | .xori thread d a imm => below 384 thread && (Gullot.imm .xori d a imm).wellFormed
  | .slti thread d a imm => below 384 thread && (Gullot.imm .slti d a imm).wellFormed
  | .sltiu thread d a imm => below 384 thread && (Gullot.imm .sltiu d a imm).wellFormed
  | .slli thread d a imm => below 384 thread && (Gullot.imm .slli d a imm).wellFormed
  | .srli thread d a imm => below 384 thread && (Gullot.imm .srli d a imm).wellFormed
  | .srai thread d a imm => below 384 thread && (Gullot.imm .srai d a imm).wellFormed
  | .liq thread d q imm => below 384 thread && (Gullot.liq d q imm).wellFormed
  | .ldB thread d b imm => below 384 thread && (Gullot.load .b d b imm).wellFormed
  | .ldH thread d b imm => below 384 thread && (Gullot.load .h d b imm).wellFormed
  | .ldW thread d b imm => below 384 thread && (Gullot.load .w d b imm).wellFormed
  | .ldD thread d b imm => below 384 thread && (Gullot.load .d d b imm).wellFormed
  | .stB thread v b imm => below 384 thread && (Gullot.store .b v b imm).wellFormed
  | .stH thread v b imm => below 384 thread && (Gullot.store .h v b imm).wellFormed
  | .stW thread v b imm => below 384 thread && (Gullot.store .w v b imm).wellFormed
  | .stD thread v b imm => below 384 thread && (Gullot.store .d v b imm).wellFormed
  | .beq thread a b off => below 384 thread && (Gullot.branch .eq a b off).wellFormed
  | .bne thread a b off => below 384 thread && (Gullot.branch .ne a b off).wellFormed
  | .blt thread a b off => below 384 thread && (Gullot.branch .lt a b off).wellFormed
  | .bge thread a b off => below 384 thread && (Gullot.branch .ge a b off).wellFormed
  | .bltu thread a b off => below 384 thread && (Gullot.branch .ltu a b off).wellFormed
  | .bgeu thread a b off => below 384 thread && (Gullot.branch .geu a b off).wellFormed
  | .j thread off => below 384 thread && (Gullot.j off).wellFormed
  | .jal thread d off => below 384 thread && (Gullot.jal d off).wellFormed
  | .jr thread src => below 384 thread && (Gullot.jr src).wellFormed
  | .mkca thread d n src => below 384 thread && (Gullot.mkca d n src).wellFormed
  | .capn thread cd cs a b mask => below 384 thread && (Gullot.capn cd cs a b mask).wellFormed
  | .rds thread d src => below 384 thread && (Gullot.rds d src).wellFormed
  | .zc thread d src => below 384 thread && (Gullot.engine .zc d src).wellFormed
  | .zd thread d src => below 384 thread && (Gullot.engine .zd d src).wellFormed
  | .xts thread d src decrypt => below 384 thread && (Gullot.engine (if decrypt then .xtsDecrypt else .xtsEncrypt) d src).wellFormed
  | .app thread d src => below 384 thread && (Gullot.engine .app d src).wellFormed
  | .rdl thread d src => below 384 thread && (Gullot.engine .rdl d src).wellFormed
  | .xout thread d src => below 384 thread && (Gullot.engine .xout d src).wellFormed
  | .unmap thread d src => below 384 thread && (Gullot.engine .unmap d src).wellFormed
  | .wait thread d t => below 384 thread && (Gullot.wait d t).wellFormed
  | .mapq thread d src => below 384 thread && (Gullot.engine .mapq d src).wellFormed
  | .rdc thread d src => below 384 thread && (Gullot.engine .rdc d src).wellFormed
  | .post thread src _ => below 384 thread && (Gullot.post src).wellFormed
  | .halt thread _ => below 384 thread && Gullot.halt.wellFormed
  | .note thread src => below 384 thread && (Gullot.note src).wellFormed
  | .zcComplete thread ticket _ => below 384 thread && below 16 ticket
  | .zdComplete thread ticket _ => below 384 thread && below 16 ticket
  | .xtsComplete thread ticket _ => below 384 thread && below 16 ticket
  | .appComplete thread ticket _ => below 384 thread && below 16 ticket
  | .rdlComplete thread ticket _ _ => below 384 thread && below 16 ticket
  | .xoutComplete thread ticket _ _ => below 384 thread && below 16 ticket
  | .unmapComplete thread ticket _ => below 384 thread && below 16 ticket
  | .instructionTag thread pc _ _ _ _ _ _ _ => below 384 thread && below 65536 pc
  | .cpeLaneStop lane _ _ => below 96 lane
  | .cpeLaneResume lane => below 96 lane
  | .cpeUndecodableSummary => true
  | .cipLaneStop lane _ _ => below 96 lane
  | .cipLaneResume lane _ _ => below 96 lane
  | .memoryUe _ _ _ _ _ => true
  | .swcCellLost => true
  | .eccScrub _ _ => true
  | .memoryCeSummary _ => true
  | .rngFault _ _ _ => true
  | .rngRecovered _ _ => true
  | .drbgReseed => true
  | .maskReseed lane => below 96 lane
  | .cipTestEntered client => below 4 client
  | .cipTestExit => true
  | .testAesBlockEncrypt client => below 4 client
  | .testGcmEncrypt client => below 4 client
  | .testXtsEncrypt client => below 4 client
  | .testXtsDecrypt client => below 4 client
  | .stripeCloseMs set _ _ => below 16 set
  | .nvmeWriteCompletion bay cid _ _ => below 32 bay && below 65536 cid
  | .mapCommit set _ _ => below 16 set
  | .pageCkpt nsid _ _ => numbered 4096 nsid
  | .collection set _ => below 16 set
  | .zoneFree set _ => below 16 set
  | .recovery set _ _ => below 16 set
  | .recoveryDone set _ => below 16 set
  | .rebuildDone set member _ => below 16 set && below 32 member
  | .stripeLost set => below 16 set
  | .lossWalkDone set _ => below 16 set
  | .scrubPassDone set => below 16 set
  | .landing _ => true
  | .spillReturn _ => true
  | .swcInputResumed _ => true
  | .egressSend point _ => below 261 point
  | .schSample _ => true
  | .schSampleDropSummary => true
  | .droneCoreFenced core _ _ => below 3 core
  | .droneRecopy _ => true
  | .droneRecopied _ => true
  | .droneDegraded _ => true
  | .droneHalted _ => true
  | .stewardRestarted steward _ _ => below 8 steward
  | .stewardViolation steward _ _ => below 8 steward
  | .controlReset client _ _ => below 4 client
  | .autoReset _ => true
  | .controlResetDone _ => true
  | .ownerLock client _ _ => below 4 client
  | .attestQuote _ _ _ => true
  | .attestCertificates _ _ _ => true
  | .attestLog _ _ _ => true
  | .attestDone _ => true
  | .akCertified => true
  | .loaderSlotCheck _ _ => true
  | .loaderPlRetry => true
  | .fwRecovered _ _ => true
  | .plLinkUp _ => true
  | .plLinkDown _ => true
  | .pairKeyExchange _ _ _ _ _ => true
  | .pairKeyRetry _ => true
  | .pairKeyRekey _ => true
  | .heartbeatSend _ => true
  | .heartbeatRx _ _ _ => true
  | .aliveRelease _ => true
  | .partnerLineChange _ _ => true
  | .partnerFailed _ => true
  | .takeoverDone _ => true
  | .mirrorAppendRx _ => true
  | .forwardedCommand _ _ _ _ => true
  | .forwardedCompletion _ _ _ _ _ _ _ _ => true
  | .resync _ => true
  | .resyncRetry _ => true
  | .partnerStandbyReady _ => true
  | .handback client _ _ => below 4 client
  | .handover set _ _ => below 16 set
  | .handbackDone set _ => below 16 set
  | .loopForward f _ => aFrame f
  | .driveQualify bay _ _ => below 32 bay
  | .identifyRetry bay _ _ => below 32 bay
  | .autoPrepare => true
  | .nvmeAdminCompletion bay cid _ _ => below 32 bay && below 65536 cid
  | .nvmeReadCompletion bay cid _ _ => below 32 bay && below 65536 cid
  | .readTimeout bay cid _ => below 32 bay && below 65536 cid
  | .writeTimeout bay cid _ => below 32 bay && below 65536 cid
  | .adminTimeout bay cid _ => below 32 bay && below 65536 cid
  | .cidQuarantineEnd bay cid => below 32 bay && below 65536 cid
  | .driveTimeoutSummary bay => below 32 bay
  | .driveDmaRequest bay _ _ _ => below 32 bay
  | .driveBadDma bay => below 32 bay
  | .controllerFatal bay _ => below 32 bay
  | .driveLinkDown bay _ => below 32 bay
  | .driveLinkUp bay _ => below 32 bay
  | .linkDownExpiry bay _ => below 32 bay
  | .linkTrainTimeout bay => below 32 bay
  | .cstsReadyTimeout bay => below 32 bay
  | .healthPoll bay => below 32 bay
  | .moduleSeated _ => true
  | .moduleExtraction _ => true
  | .bayInserted bay => below 32 bay
  | .bayRemoved bay _ => below 32 bay
  | .inletWindow _ _ => true
  | .inletDelayExpiry => true
  | .inletOn _ _ _ => true
  | .inletFault _ _ => true
  | .inletRampTimeout => true
  | .inletRetry => true
  | .inletFaultClear client => below 4 client
  | .bayDelayExpiry bay _ => below 32 bay
  | .auxDelayExpiry bay => below 32 bay
  | .bayPowered bay _ => below 32 bay
  | .bayFault bay _ _ _ => below 32 bay
  | .bayRampTimeout bay _ => below 32 bay
  | .bayRetry bay => below 32 bay
  | .bayEnable client bay _ _ => below 4 client && below 32 bay
  | .bayFaultClear client bay => below 4 client && below 32 bay
  | .powerBudget _ => true
  | .powerBudgetRelease => true
  | .sensorFault _ => true
  | .powerFail _ _ => true
  | .powerRestored _ => true
  | .saveStart _ => true
  | .saveComplete _ _ => true
  | .holdupExhausted _ _ => true
  | .holdupTest _ _ => true
  | .holdupCharged _ => true
  | .fanFault fan _ => below 6 fan
  | .fanRestored fan _ => below 6 fan
  | .temperatureStale _ => true
  | .thermalShutdown _ => true
  | .thermalRestart => true
  | .bar2Tlp _ => true
  | .pepWinCommit client _ => below 4 client
  | .pepWinHold client _ => below 4 client
  | .pepWinHoldExpired window => below 1024 window
  | .irqGapExpiry _ => true
  | .msixUnmask _ => true
  | .busMasterDisable _ => true
  | .endpointReset _ _ => true
  | .endpointLinkUp _ _ => true
  | .pepAccessSummary => true
  | .cntFreeze client => below 4 client
  | .cntResume client => below 4 client
  | .freezeEdge client _ => below 4 client
  | .resumeEdge client _ => below 4 client
  | .clearAll client => below 4 client
  | .cntValWrite client counter _ => below 4 client && below 96 counter
  | .cntOverflow counter _ => below 96 counter
  | .cntRecordDropSummary => true
  | .eventDelivery client _ => below 4 client
  | .eventReoffer client _ => below 4 client
  | .evq0Enable client => below 4 client
  | .mgmtFrameRx _ _ _ => true
  | .eventMirror _ => true
  | .mgmtLinkUp => true
  | .mgmtLinkDown => true
  | .standbyPowerUp => true
  | .slotPinRead _ => true
  | .slotPinTimeout => true
  | .slotPinChange _ => true
  | .bellTrainingDone _ => true
  | .restoreDone => true
  | .claim slot _ _ _ _ => below 2 slot
  | .peerWaitTimeout _ _ => true
  | .ptpDelayReq port _ _ _ _ => below 260 port
  | .ptpMasterSync _ => true
  | .mapqComplete thread ticket _ => below 384 thread && below 16 ticket
  | .rdcComplete thread ticket _ => below 384 thread && below 16 ticket
  | .nvmeFlushCompletion bay cid _ _ => below 32 bay && below 65536 cid
  | .holdupFullCharge _ => true
  | .holdupRecharge _ => true
  | .temperatureSample _ _ => true
  | .busMasterEnable => true
  | .ctlEvq0HeadWrite client _ => below 4 client
  | .standbyCopyRx _ => true
  | .recoveryCopyDone => true
  | .fwCopyRequest => true

end Sys2Proof
end

