-- ==== Sys2Proof/Tests/Slice0.lean ====
section
/-! SUPPORT. Small tests of the model, each on one step from a small state, and for every statement with hypotheses a state and operands
that meet them. -/

namespace Sys2Proof.Tests

open Sys2Proof Sys2Proof.Machine

set_option Elab.async false

/-! ## Helpers -/

/-- The module that an answer leaves. -/
def after (o : Answer) : Dev := match o with
  | .next s => s.dev
  | _ => {}

/-- A state whose module is given, with an empty queue. -/
def at' (d : Dev) : State := { pending := [], dev := d }

/-- A module that serves: PHASE 6. -/
def serving : Dev := { startUp := { phase := 6, slot := some 0 } }

/-- The newest event of client 0: class, code, unit and data. -/
def newest (d : Dev) : Option (Nat × Nat × Nat × List Item) :=
  (d.client 0).history.head?.map fun e => (e.cls, e.code, e.unit, e.data)

/-- The newest event of client 0 is this one. -/
def posts (d : Dev) (cls code unit : Nat) (data : List Item) : Bool := newest d == some (cls, code, unit, data)

/-- What a command leaves of a module. -/
def run (i : Instr) (d : Dev) : Dev := after (exec i (at' d))

/-! ## Well-formed commands -/

theorem test_wf_client : (Instr.clearAll 3).wellFormed = true ∧ (Instr.clearAll 4).wellFormed = false := by decide
theorem test_wf_port : (Instr.portUp 259).wellFormed = true ∧ (Instr.portUp 260).wellFormed = false := by decide
theorem test_wf_bay : (Instr.bayInserted 31).wellFormed = true ∧ (Instr.bayInserted 32).wellFormed = false := by decide
theorem test_wf_set : (Instr.setReady 15).wellFormed = true ∧ (Instr.setReady 16).wellFormed = false := by decide
theorem test_wf_sa : (Instr.authFail 16383).wellFormed = true ∧ (Instr.authFail 16384).wellFormed = false := by decide
theorem test_wf_thread : (Instr.halt 383 0).wellFormed = true ∧ (Instr.halt 384 0).wellFormed = false := by decide
theorem test_wf_register : (Instr.add 0 31 31 31).wellFormed = true ∧ (Instr.add 0 32 0 0).wellFormed = false := by decide
theorem test_wf_block_register : (Instr.zc 0 1 28).wellFormed = true ∧ (Instr.zc 0 1 29).wellFormed = false := by decide
theorem test_wf_ticket : (Instr.zcComplete 0 15 0).wellFormed = true ∧ (Instr.zcComplete 0 16 0).wellFormed = false := by decide
theorem test_wf_counter : (Instr.cntOverflow 95 1).wellFormed = true ∧ (Instr.cntOverflow 96 1).wellFormed = false := by decide
theorem test_wf_namespace : (Instr.nsReleased 4096).wellFormed = true ∧ (Instr.nsReleased 0).wellFormed = false := by decide
theorem test_wf_queue : (Instr.responseReoffer 16384).wellFormed = true ∧ (Instr.responseReoffer 0).wellFormed = false := by decide
theorem test_wf_window : (Instr.windowRefuseSummary 1023).wellFormed = true ∧ (Instr.windowRefuseSummary 1024).wellFormed = false := by decide
theorem test_wf_entry :
    (Instr.tune { sq := 1, sa := 0, entry := zeros 64, data := { payload := [], fail := 0 }, now := 0 }).wellFormed = true ∧
    (Instr.tune { sq := 1, sa := 0, entry := zeros 63, data := { payload := [], fail := 0 }, now := 0 }).wellFormed = false := by decide
theorem test_wf_frame :
    (Instr.kexInit { port := 0, bytes := zeros 14, fcsOk := true, now := 0 }).wellFormed = true ∧
    (Instr.kexInit { port := 0, bytes := zeros 13, fcsOk := true, now := 0 }).wellFormed = false := by decide
theorem test_wf_lane : (Instr.maskReseed 95).wellFormed = true ∧ (Instr.maskReseed 96).wellFormed = false := by decide
theorem test_wf_fan : (Instr.fanFault 5 0).wellFormed = true ∧ (Instr.fanFault 6 0).wellFormed = false := by decide
theorem test_wf_point : (Instr.egressSend 260 0).wellFormed = true ∧ (Instr.egressSend 261 0).wellFormed = false := by decide
theorem test_wf_core : (Instr.droneCoreFenced 2 0 0).wellFormed = true ∧ (Instr.droneCoreFenced 3 0 0).wellFormed = false := by decide
theorem test_wf_steward : (Instr.stewardRestarted 7 0 true).wellFormed = true ∧ (Instr.stewardRestarted 8 0 true).wellFormed = false := by
  decide
theorem test_wf_command_id : (Instr.cidQuarantineEnd 0 65535).wellFormed = true ∧ (Instr.cidQuarantineEnd 0 65536).wellFormed = false := by
  decide
theorem test_wf_member : (Instr.rebuildDone 0 31 0).wellFormed = true ∧ (Instr.rebuildDone 0 32 0).wellFormed = false := by decide
theorem test_wf_slot : (Instr.claim 1 0 0 0 0).wellFormed = true ∧ (Instr.claim 2 0 0 0 0).wellFormed = false := by decide
theorem test_wf_block : (Instr.crossingWriteDrop 39).wellFormed = true ∧ (Instr.crossingWriteDrop 40).wellFormed = false := by decide
theorem test_wf_packet : (Instr.retxTimer 0 (2 ^ 32 - 1) 63).wellFormed = true ∧ (Instr.retxTimer 0 (2 ^ 32) 0).wellFormed = false ∧
    (Instr.retxTimer 0 0 64).wellFormed = false := by decide
theorem test_wf_word_index : (Instr.instructionTag 0 65535 0 0 0 0 0 0 none).wellFormed = true ∧
    (Instr.instructionTag 0 65536 0 0 0 0 0 0 none).wellFormed = false := by decide

/-! ## Gullot words, written from the formats of chapter 8 (R187 to R189) -/

/-- `mkca g20, c5, g21` of the worked words: 0x8295_0005. -/
theorem test_word_mkca : Gullot.decode 0x82950005 = some (.mkca 20 5 21) ∧ Gullot.encode (.mkca 20 5 21) = 0x82950005 := by decide
/-- `nop`: the zero word is `add g0, g0, g0` (R188). -/
theorem test_word_nop : Gullot.decode 0 = some (.alu .add 0 0 0) := by decide
/-- `sub g1, g2, g3`: 000000 00001 00010 00011 00000000001. -/
theorem test_word_sub : Gullot.decode 0b00000000001000100001100000000001 = some (.alu .sub 1 2 3) := by decide
/-- `addi g31, g1, -1`: 000001 11111 00001 1111111111111111. -/
theorem test_word_addi : Gullot.decode 0b00000111111000011111111111111111 = some (.imm .addi 31 1 0xFFFF) := by decide
/-- `liq g4, 0xABCD, 3`: 001010 00100 00011 1010101111001101. -/
theorem test_word_liq : Gullot.decode 0b00101000100000111010101111001101 = some (.liq 4 3 0xABCD) := by decide
/-- `st.d`: opcode 0x13; `ld.b`: opcode 0x0C. -/
theorem test_word_memory : Gullot.decode 0b01001100001000100000000000001000 = some (.store .d 1 2 8) ∧
    Gullot.decode 0b00110000001000100000000000001000 = some (.load .b 1 2 8) := by decide
/-- `bgeu g1, g2, -2`: opcode 0x19. -/
theorem test_word_branch : Gullot.decode 0b01100100001000101111111111111110 = some (.branch .geu 1 2 0xFFFE) := by decide
/-- `jal g1, 5`: opcode 0x1B, OFF21. -/
theorem test_word_jal : Gullot.decode 0b01101100001000000000000000000101 = some (.jal 1 5) := by decide
/-- `capn c1, c5, g2, g3` with MASK 5: opcode 0x21. -/
theorem test_word_capn : Gullot.decode 0b10000100110100010000110101000000 = some (.capn 1 5 2 3 5) := by decide
/-- `xts` with D = 1 decrypts; gs above 28 is unlisted. -/
theorem test_word_engine : Gullot.decode 0b10101000001000100000000000000001 = some (.engine .xtsDecrypt 1 2) ∧
    Gullot.decode 0b10101000001111010000000000000001 = none := by decide
/-- Opcode 0x0B is unlisted. -/
theorem test_word_unlisted : Gullot.decode (0x0B * 2 ^ 26) = none := by decide

/-- Gullot decode of encode: a well-formed instruction at the boundaries of its fields. -/
theorem witness_gullot_words : (Gullot.imm .slli 31 31 63).wellFormed = true ∧ (Gullot.note 30).wellFormed = true ∧
    (Gullot.capn 7 7 31 31 15).wellFormed = true ∧ Gullot.decode (Gullot.encode (.note 30)) = some (.note 30) := by decide

/-! ## Registers, time and the grid -/

/-- HPC_RETX fields at both ends of their ranges, a value just outside, and the malformed accesses. -/
theorem witness_DirectWrite :
    (10 ≤ 0x1000A % 65536 ∧ 0x1000A % 65536 ≤ 1000 ∧ 1 ≤ 0x1000A / 65536 % 16 ∧ 0x1000A / 65536 % 16 ≤ 8) ∧
    (10 ≤ 0x803E8 % 65536 ∧ 0x803E8 % 65536 ≤ 1000 ∧ 1 ≤ 0x803E8 / 65536 % 16 ∧ 0x803E8 / 65536 % 16 ≤ 8) ∧
    (0x10009 % 65536 < 10 ∧ 1000 < 0x803E9 % 65536) ∧ ((2 ≠ 4 ∧ 2 ≠ 8) ∧ 2 % 4 ≠ 0 ∧ 2 ^ 24 < 0xFFFFFC + 8) := by decide
theorem test_direct_write : let d := run (.registerWrite 5 0x200008 4 0x803E8) {}
    d.written 0x200008 = 0x803E8 ∧ d.reg 0x200008 = resetWordAt 0x200008 ∧ d.regs.landing.length = 2 := by decide
theorem test_direct_write_rejected : let d := run (.registerWrite 5 0x200008 4 0x80009) {}
    d.regs.landing.length = 1 ∧ newest d = some (5, 0xA0, 2, [(4, 8), (1, 0), (8, 9)]) := by decide
theorem test_bad_access : (run (.registerWrite 5 2 4 0) {}).reg 0xC00024 = 1 := by decide

/-- A field change below, at and above the field. -/
theorem witness_StoresReadBack : let d : Dev := {}
    (0 + 4 ≤ 4 ∧ 4 + 8 ≤ 12) ∧ (d.setField 0x30 4 8 0x1FF).field 0x30 4 8 = 0xFF ∧
    (0 < 1 ∧ 1 + [(7 : Byte)].length ≤ 2) ∧ memoryWf [((3 : Nat), (5 : Byte))] = true ∧ memoryWf [] = true ∧
    readByte (writeByte [] 3 5) 3 = 5 ∧ writeByte [(3, (5 : Byte))] 3 0 = [] := by decide

/-- A grid locked to a source, with every other source unqualified. -/
def lockedTo (x : TimeSource) : Dev := ({
  grid := { mode := .locked, source := some x, lastLocked := some x, nextEdge := 10, offset := -2500
            ptp := { qualified := decide (x = .ptp), streak := 8 }, syncIn := { qualified := decide (x = .syncIn), streak := 3 }
            ref10m := { qualified := decide (x = .ref10m), streak := 3 }, peer := { qualified := decide (x = .peer), streak := 1 } } } : Dev).setReg 0x100020 0x4321

theorem witness_LostSourceHoldsOver : ∀ x ∈ [TimeSource.ptp, .syncIn, .ref10m, .peer],
    (lockedTo x).grid.source = some x ∧ ∀ y ∈ (lockedTo x).listed, y ≠ x → ((lockedTo x).grid.filter y).qualified = false := by decide
theorem test_lost_source : ([(TimeSource.ptp, Instr.ptpSyncTimeout), (.syncIn, .syncInTimeout), (.ref10m, .ref10mLoss), (.ref10m, .ppsTimeout),
      (.peer, .peerTimeTimeout)].all fun p => let d := run p.2 (lockedTo p.1)
    d.grid.mode == .holdover && d.grid.source == none && d.grid.nextEdge == 10 &&
    newest d == some (6, 2, p.1.code, [(1, p.1.code), (8, unsignedOf (-3) 64)])) = true := by decide

/-- A PTP exchange on the selected port and domain. -/
def sync (offset : Int) (ok : Bool) : PtpSync := { port := 0, domain := 127, logSync := 0, wellFormed := ok, offset := offset, now := 77 }

theorem witness_TimeInputsChecked : let d : Dev := {}
    ((sync 0 false).wellFormed = false) ∧
    ((sync 5 true).wellFormed = true ∧ (sync 5 true).domain = d.field 0x100028 9 8 ∧ (sync 5 true).port = d.field 0x100028 0 9 ∧
      ptpFilter d.grid.ptp 5 77 = some { samples := [5], streak := 1, lastAt := some 77 }) ∧
    (let e : Dev := { grid := { lastSyncPulse := some 1000 } }
     let nominal := e.field 0x100030 0 16 * e.spanPs / e.spanN
     100000 ≤ 100000 ∧ 0 < nominal ∧ e.field 0x100030 32 32 = 0 ∧ (1000 + nominal * 2 - 1000) * 1000 > nominal * 1001 ∧
      nominal * 999 ≤ nominal * 1000 ∧ nominal * 1000 ≤ nominal * 1001) ∧
    (((1000000000000 + 100000000 : Nat) : Int) - 0 - 1000000000000).natAbs ≤ 100000000 ∧ 9999500 ≤ 10000500 := by decide
theorem test_ptp_sync : (run (.ptpSync (sync 5 true)) {}).grid.ptp.samples = [5] ∧ (run (.ptpSync (sync 5 false)) {}).reg 0x100070 = 1 ∧
    (run (.ptpSync (sync 5 false)) {}).grid.ptp.samples = [] := by decide
theorem test_sync_in : let d : Dev := { grid := { lastSyncPulse := some 1000, syncIn := { streak := 2 } } }
    let nominal := d.field 0x100030 0 16 * d.spanPs / d.spanN
    (run (.syncInPulse (1000 + nominal) 100000) d).grid.syncIn.qualified = true ∧
    (run (.syncInPulse (1000 + 2 * nominal) 100000) d).reg 0x100074 = 1 := by decide
theorem test_pps : let d : Dev := { grid := { lastPps := some 0, ref10m := { carrier := true, streak := 2 } } }
    let e := run (.ppsPulse 1000100000000 1000000) d
    e.grid.ref10m.qualified = true ∧ e.grid.lastPps = some 1000100000000 ∧ e.grid.ppsSecond = 1 := by decide
theorem test_ref10m : (run (.ref10mQualify 9999500) {}).grid.ref10m.carrier = true ∧ (run (.ref10mQualify 9999499) {}).grid.ref10m.carrier = false := by
  decide

/-- A returning source ahead of the one in use. -/
def returning : Dev := ({
  grid := {
    mode := .locked, source := some .peer, lastLocked := some .peer, reverting := some .ptp, ptp := { qualified := true }
    peer := { qualified := true }, rejects := [(0, 3)] } } : Dev).setReg 0x100020 0x4321

/-- The module as PTP master on its loop ports. -/
def mastering : Dev := ({} : Dev).setReg 0x100028 (2 ^ 22)

theorem witness_SourceChanges :
    (returning.grid.reverting = some .ptp ∧ (returning.candidates true).head? = some .ptp) ∧ 0 < (find returning.grid.rejects 0).getD 0 ∧
    259 ∈ mastering.masterPorts ∧ 0 = mastering.field 0x100028 9 8 ∧ 0 ∉ mastering.masterPorts := by decide
theorem test_revert : let d := run .revertHoldExpiry returning
    d.grid.source = some .ptp ∧ newest d = some (6, 4, 0 + TimeSource.ptp.code, [(1, TimeSource.peer.code), (1, TimeSource.ptp.code)]) := by decide
theorem test_reject_summary : let d := run (.timeInputReject 0) returning
    (find d.grid.rejects 0).getD 0 = 0 ∧ (newest d).map (fun e => e.2.1) = some 8 := by decide
theorem test_delay_req : (run (.ptpDelayReq 259 0 [] 4 9) mastering).out.length = 1 ∧ (run (.ptpDelayReq 3 0 [] 4 9) mastering).reg 0x100070 = 1 ∧
    (run (.ptpMasterSync 9) mastering).out.length = 8 := by decide

/-- Held and waiting writes of a bay's block. -/
def heldUp : Dev := {
  crossing := { held := [(5, List.replicate 16 { addr := 0xA01298, bytes := 4, value := 1, client := 0 })]
                waiting := [(5, [{ addr := 0xA01298, bytes := 4, value := 2, client := 0 }])] } }

theorem witness_StoppedClockCrossings :
    (blockOf 0xB00030 = some 33 ∧ 33 ≤ 33) ∧ (blockOf 0xA01280 = some 5 ∧ heldUp.stopped 5 = true) ∧
    ((heldUp.crossing.at 5).1.length = 16 ∧ (heldUp.crossing.at 5).2 ≠ []) ∧ heldUp.stopped 39 = false := by decide
theorem test_crossing_read : let d := run (.crossingReadTimeout 0xA01280) heldUp
    d.out = [.register 0xA01280 0xC10C57AD] ∧ d.reg 0x30 = 1 + 2 ^ 13 := by decide
theorem test_crossing_drop : let d := run (.crossingWriteDrop 5) heldUp
    (d.crossing.at 5).2 = [] ∧ d.field 0x30 1 1 = 1 := by decide
theorem test_crossing_flush : ((run (.xingFlush 32) heldUp).crossing.at 5) =
    ([{ addr := 0xA01298, bytes := 4, value := 2, client := 0 }], []) ∨ ((run (.xingFlush 32) heldUp).crossing.at 5).2 = [] := by decide

/-- A write that meets the cut-off of an edge by no time at all, and one that misses it by 1 ps. -/
def twoWrites : Dev := { regs := { landing := [{ addr := 0x200008, lo := 0, width := 16, value := 50, arrival := 5, client := 0 },
  { addr := 0x200008, lo := 16, width := 4, value := 2, arrival := 6, client := 0 }] } }

theorem witness_EdgeApplies : twoWrites.power.saving = none ∧
    (twoWrites.dueWrites 2000005).map LandingWrite.arrival = [5] ∧ ({ saving := some 3 } : Power).saving ≠ none := by decide
theorem test_edge_lands_writes : let d := run .breathEdge { twoWrites with grid := { breath := 8, nextEdge := 2000005 } }
    d.field 0x200008 0 16 = 50 ∧ d.field 0x200008 16 4 = bitsOf (resetWordAt 0x200008) 16 4 ∧ d.breath = 9 ∧ d.grid.lastEdge = 2000005 := by decide +kernel

/-! ## Cuchail transport -/

/-- Keys of the test SA: each way its own. -/
def keys : SaKeys := { rxKey := zeros 32, txKey := zeros 32, rxSalt := [1, 2, 3, 4], txSalt := [4, 3, 2, 1] }

/-- SA 5, ACTIVE, with a peer at 10.0.0.2. -/
def sa5 : Sa := { state := .active, endpoint := 9, addr := mapped 0x0A000002, secret := zeros 32, slot0 := some keys, floor := 100 }

/-- A serving module with port 3 up, SA 5 and its entry in the cache. -/
def linked : Dev := { serving with transport := { sas := [(5, sa5)], saCache := [5], ports := [(3, { up := true })] } }

/-- A header on SA 5. -/
def header (type msg offset : Nat) : Header :=
  { type := type, flags := 0, sa := 5, endpoint := 9, msgId := msg, pktIndex := 0, pktCount := 1, target := 0, offset := offset, breathLo := 0 }

/-- An IPv4 UDP datagram from 10.0.0.2 in an Ethernet frame, with a zero UDP checksum. -/
def datagram (dport : Nat) (payload : Bytes) : Bytes :=
  zeros 12 ++ beBytes 2 0x0800 ++ ([0x45, 0] ++ beBytes 2 (28 + payload.length) ++ zeros 4 ++ [64, 17, 0, 0] ++ beBytes 4 0x0A000002 ++ zeros 4) ++
    (beBytes 2 50000 ++ beBytes 2 dport ++ beBytes 2 (8 + payload.length) ++ [0, 0] ++ payload)

/-- The sealed payload of a packet: header, cipher text and tag. -/
def sealed (h : Header) (text : Bytes) : Bytes :=
  let (c, t) := Gcm.encrypt keys.rxKey (packetNonce keys.rxSalt h) h.bytes text
  h.bytes ++ c ++ t

/-- An authentic ACK packet on port 3. -/
def ackFrame : Frame := { port := 3, bytes := datagram (({} : Dev).field 0x200000 0 16) (sealed (header 5 100 0) (zeros 16)), fcsOk := true, now := 7 }

/-- The packet in a frame. -/
def packetIn (d : Dev) (f : Frame) : Packet := match d.classify f with
  | .cuchail p => p
  | _ => { port := 0, frame := [], header := header 0 0 0, addr := 0, cipher := [], tag := [] }

theorem witness_ReceiveSteps_frame : let a := linked.clock 7
    a.takesFrames 3 = true ∧ passesOn 3 ackFrame.bytes = false ∧ a.classify ackFrame = .cuchail (packetIn a ackFrame) ∧
    (packetIn a ackFrame).header = header 5 100 0 := by decide +kernel
theorem witness_ReceiveSteps_authentic : let a := linked.clock 7
    ((a.total 0x2010E8 32 1).policePort 3 (ackFrame.bytes.length + 4)).2 = true ∧
    (a.authenticate (packetIn a ackFrame)).2 = some (zeros 16) ∧ (a.policeSa 3 5 100).2 = true := by decide +kernel

/-- A replay entry of message 100 on SA 5. -/
def entry (bitmap : Nat) (refusal : Option (Nat × Nat × Nat)) : ReplayEntry :=
  { sa := 5, msgId := 100, type := 0, target := 0, pktCount := 1, bitmap := bitmap, createdAt := 0, refusal := refusal }

/-- The linked module with replay entries. -/
def replaying (l : List ReplayEntry) : Dev := { linked with transport := { linked.transport with replay := l } }

theorem witness_ReplayVerdicts :
    ((replaying [entry 0 none]).replayEntry 5 100 = some (entry 0 none) ∧ (entry 0 none).type ≠ (header 1 100 0).type) ∧
    ((replaying [entry 0 (some (0, 2, 3))]).replayEntry 5 100).map ReplayEntry.refusal = some (some (0, 2, 3)) ∧
    bitOf (entry 0 none).bitmap 0 = false ∧ bitOf (entry 1 none).bitmap 0 = true ∧ linked.replayEntry 5 99 = none ∧
    (1 ≤ (100 + 2 ^ 32 - 99 % 2 ^ 32) % 2 ^ 32 ∧ (100 + 2 ^ 32 - 99 % 2 ^ 32) % 2 ^ 32 ≤ 2 ^ 31) ∧
    ¬ 1 ≤ (100 + 2 ^ 32 - 100 % 2 ^ 32) % 2 ^ 32 := by decide
theorem test_replay_verdicts :
    ((replaying [entry 0 none]).replayVerdict (header 1 100 0)).1.reg 0x200038 = 1 ∧
    ((replaying [entry 0 none]).replayVerdict (header 0 100 0)).2 = true ∧
    ((replaying [entry 1 none]).replayVerdict (header 0 100 0)).2 = false ∧
    (linked.replayVerdict (header 0 99 0)).1.reg 0x20002C = 1 ∧ (linked.replayVerdict (header 0 100 0)).2 = true := by decide +kernel

/-- A packet on SA 5 with a wrong tag, and one from another endpoint. -/
def forged (endpoint : Nat) : Packet :=
  { port := 3, frame := [], header := { header 0 100 0 with endpoint := endpoint }, addr := mapped 0x0A000002, cipher := [1], tag := zeros 16 }

theorem witness_Unauthentic : find linked.transport.sas 5 = some sa5 ∧ sa5.accepts 0 = true ∧ sa5.slotOf 0 = some keys ∧
    sa5.endpoint = (forged 9).header.endpoint ∧ sa5.addr = (forged 9).addr ∧ sa5.endpoint ≠ (forged 8).header.endpoint := by decide
theorem witness_Unauthentic_tag :
    Gcm.decrypt keys.rxKey (packetNonce keys.rxSalt (forged 9).header) (forged 9).header.bytes (forged 9).cipher (forged 9).tag = none := by
  decide +kernel
theorem test_wrong_tag : (linked.withSa (forged 9)).reg 0x200024 = 1 ∧ ((find (linked.withSa (forged 9)).transport.sas 5).map Sa.authFails) = some 1 := by
  decide +kernel
theorem test_wrong_endpoint : (linked.withSa (forged 8)).reg 0x200020 = 1 ∧
    (newest (linked.withSa (forged 8))).map (fun e => (e.1, e.2.1, e.2.2.1)) = some (8, 8, 5) := by decide +kernel

/-- A packet that has waited for its SA's context. -/
def waitingPacket : WaitingPacket :=
  { port := 3, frame := [], text := [], arrivedAt := 0, step := 2, sa := 5, target := 0, msgId := 0, pktIndex := 0 }

/-- A message of one packet on SA 5 with some tries. -/
def outgoing (tries : Nat) : OutMessage :=
  { sa := 5, msgId := 0, type := 4, target := 0, packets := [(0, 0, zeros 32)], acked := 0, tries := [tries], purpose := .readResp }

/-- The linked module with something for every timer. -/
def timing : Dev := { linked with transport := { linked.transport with
  sas := [(5, { sa5 with oldPhase := true, phase := 1, slot1 := some keys, ackDue := [100, 100], unacked := 2, replies := [{ nonce := [1], reply := [] }] })]
  replay := [entry 1 none], fetching := [waitingPacket], sent := [(5 * 2 ^ 32, outgoing 8)] } }

theorem witness_TransportTimers :
    (∃ e ∈ timing.transport.replay, e.createdAt + 64000000000 ≤ 64000000000) ∧
    ((find timing.transport.sas 5).isSome ∧ timing.saActive 5 = true ∧ (find timing.transport.sas 5).any Sa.oldPhase = true) ∧
    timing.transport.fetching.find? (fun w => w.step == 2 && w.sa == 5) = some waitingPacket ∧
    (find timing.transport.sent (5 * 2 ^ 32 + 0) = some (outgoing 8) ∧ 0 < (outgoing 8).packets.length ∧ bitOf (outgoing 8).acked 0 = false ∧
      (outgoing 7).tries.getD 0 0 < timing.field 0x200008 16 4 ∧ timing.field 0x200008 16 4 ≤ (outgoing 8).tries.getD 0 0) := by decide
theorem test_fetch_timeout : (run (.fetchBufferTimeout 50000000) timing).transport.fetching = [] ∧
    (run (.fetchBufferTimeout 50000000) timing).reg 0x2010E0 = 1 ∧
    (run (.fetchBufferTimeout 49999999) timing).transport.fetching.length = 1 := by decide +kernel
theorem test_replay_expiry : let d := run (.replayEntryExpire 64000000000) timing
    d.transport.replay = [] ∧ (find d.transport.sas 5).map Sa.floor = some 101 ∧ d.transport.horizonUs = 64000 := by decide +kernel
theorem test_old_phase : let d := run (.keyPhaseOldExpire 5) timing
    (find d.transport.sas 5).map (fun s => (s.oldPhase, s.slot0, s.slot1)) = some (false, none, some keys) := by decide
theorem test_nonce_expiry : (find (run (.kexNonceExpire 5 [1]) timing).transport.sas 5).map Sa.replies = some [] := by decide
theorem test_give_up : let d := run (.retxTimer 5 0 0) timing
    d.reg 0x20003C = 1 ∧ find d.transport.sent (5 * 2 ^ 32) = none := by decide +kernel
theorem test_ack_delay : (find (run (.ackDelayExpiry 5) timing).transport.sas 5).map (fun s => (s.ackDue, s.unacked)) = some ([], 0) := by
  decide +kernel

/-- A handshake INIT of the right length for SA `sa`, with a zero nonce, under the test secret; its tag is right where `good`. -/
def init (sa : Nat) (good : Bool) : Bytes :=
  let b := padTo 3180 ([1, 0] ++ beBytes 2 sa ++ beBytes 4 9)
  b ++ if good then shake256 (zeros 32 ++ ascii "CUCHAIL INIT" ++ b) 32 else zeros 32

/-- An INIT in its frame on port 3. -/
def initFrame (sa : Nat) (good : Bool) : Frame :=
  { port := 3, bytes := datagram (({} : Dev).field 0x200000 16 16) (init sa good), fcsOk := true, now := 7 }

theorem witness_Handshakes_frame : let d := linked.clock 7
    d.takesFrames 3 = true ∧ passesOn 3 (initFrame 5 false).bytes = false ∧
    d.classify (initFrame 5 false) = .kex (init 5 false) (mapped 0x0A000002) ∧ find d.transport.sas 6 = none ∧
    (init 5 false).length = 3212 ∧ byteAt (init 5 false) 0 = 1 ∧ sa5.endpoint = beNat (slice (init 5 false) 4 4) ∧
    sa5.addr = mapped 0x0A000002 ∧ sa5.replies.find? (fun r => r.nonce == slice (init 5 false) 12 32) = none ∧ d.cipher.stopped = false ∧
    (oneOfHundred (d.field 0x200018 0 16) 7 d.transport.kexAnswered).isSome = true := by decide +kernel
theorem test_kex_rejected : let d := run (.kexInit (initFrame 6 false)) linked
    d.reg 0x200034 = 1 ∧ (d.port 3).secondKex = 1 ∧ d.out = [] := by decide +kernel

theorem test_install_keys :
    ((find (linked.installKeys 5 3 40 7 true keys { nonce := [], reply := [] }).transport.sas 5).map fun y => (y.slot1, y.floor, y.pendingSlot)) =
      some (some keys, 100, some (1, 40, true)) ∧
    ((find (linked.installKeys 5 3 40 7 false keys { nonce := [], reply := [] }).transport.sas 5).map fun y => (y.slot1, y.floor, y.nextMsg)) =
      some (none, 40, 7) ∧ find linked.transport.sas 5 = some sa5 := by decide +kernel

/-- A module with port 3 enabled and not up, and with port 259 up. -/
def ports : Dev := ({ serving with transport := { ports := [(259, { up := true })] } } : Dev).setReg 0x2010C0 1

theorem witness_PortLinkStates : bitOf (ports.reg (hpcPort 3 0)) 0 = true ∧ (ports.port 3).fenced = false ∧ (ports.port 3).up = false ∧
    (ports.port 259).up = true ∧ 0 < 16 ∧ 255 / 16 = 15 ∧ ports.pointUp 259 = true ∧ ports.pointUp 3 = false := by decide
theorem test_port_up : ((run (.portUp 3) ports).port 3).up = true ∧ (newest (run (.portUp 3) ports)).map (fun e => (e.1, e.2.1, e.2.2.1)) = some (1, 1, 3) := by
  decide +kernel
theorem test_port_down : ((run (.portDown 259) ports).port 259).up = false := by decide +kernel
theorem test_port_mac_fault : ((run (.portMacFault 259) ports).port 259).fenced = true ∧ (run (.portMacFault 259) ports).field (hpcPort 259 4) 3 1 = 1 := by
  decide +kernel
theorem test_optics_fault : let d := run (.portOpticsFault 15 2) ports
    (d.port 240).fenced = true ∧ (d.port 255).fenced = true ∧ (d.port 239).fenced = false ∧ (d.port 256).fenced = false := by decide +kernel
theorem test_optics_sample : (run (.opticsSample 3 (-100) 5 30) ports).field (hpcPort 3 0x10) 0 16 = 65436 := by decide +kernel

/-- An ARP request to the port's own address draws its answer. -/
theorem witness_PortLinkStates_neighbour : oneOfHundred 100 7 (0, 99) = some (0, 100) ∧ oneOfHundred 100 7 (0, 100) = none := by decide

/-- An ARP request for an IPv4 address. -/
def arp (v4 : Nat) : Bytes := zeros 12 ++ beBytes 2 0x0806 ++ (beBytes 8 0x0001080006040001 ++ zeros 16 ++ beBytes 4 v4)

theorem witness_PortLinkStates_arp (d : Dev) :
    (neighbourAnswer (Config.portMac 259) (Config.portAddress4 259) (Config.portAddress 259) (d.vlanTag 259) .arp
      (arp (Config.portAddress4 259))).isSome = true := by
  have e : (etherOf (arp (Config.portAddress4 259))).payload =
    beBytes 8 0x0001080006040001 ++ zeros 16 ++ beBytes 4 (Config.portAddress4 259) := rfl
  have t : (etherOf (arp (Config.portAddress4 259))).type = 0x0806 := rfl
  have a : slice (beBytes 8 0x0001080006040001 ++ zeros 16 ++ beBytes 4 (Config.portAddress4 259)) 24 4 = beBytes 4 (Config.portAddress4 259) := rfl
  have h : beNat (slice (beBytes 8 0x0001080006040001 ++ zeros 16 ++ beBytes 4 (Config.portAddress4 259)) 0 8) = 0x0001080006040001 := rfl
  have l : Config.portAddress4 259 < 256 ^ 4 := (Config.portIp4 259).isLt
  simp only [neighbourAnswer, e, t, a, h, beNat_beBytes, Nat.mod_eq_of_lt l, and_self, if_true, Option.isSome_some]

/-! ## Regions, windows and egress -/

/-- A buffer region of 4,096 bytes. -/
def buffer : Region :=
  { gen := 2, kind := .buffer, life := .held, length := 4096, bytes := 4096, mayWrite := true, mayRead := true, mem := [], client := 0 }

/-- A window's region. -/
def windowRegion : Region := { buffer with gen := 0, kind := .window 4 }

/-- Window 4 on namespace 1: one block a slot, four slots, ARMED from breath 10. -/
def window : Window := {
  nsid := 1, baseLba := 0, rangeBreaths := 8, slotBlocks := 1, slots := 4, deadline := 0, cq := 7, appTag := 0, wrap := false
  checkCarried := true, replPartner := false, replDownstream := false, quiet := true, overrideExposed := false, coder := 0, program := 0
  downstreamKey := 0, region := 9, client := 0, mode := .armed, firstBreath := 10, everArmed := true }

/-- A three-way mirror on bays 0 to 2, owned by slot A and READY. -/
def mirror : StripeSet := {
  identity := 1, owner := 0, home := 0, state := .ready, wasReady := true
  layout := {
    type := .mirror3, width := 3, minRedundancy := 1, generation := 1, members := [(0, { bay := 0 }), (1, { bay := 1 }), (2, { bay := 2 })]
    stripes := 16384, zones := 16 } }

/-- Set 0 with namespace 1 on it. -/
def stored : Stripes := { sets := [(0, mirror)], namespaces := [(1, { set := 0, size := 4096, keyId := 3, coder := 0 })] }

/-- Region 8 a buffer, region 9 window 4, in breath 10. -/
def armed : Dev := { serving with
  grid := { breath := 10 }, memory := { regions := [(8, buffer), (9, windowRegion)], windows := [(4, window)] }, stripes := stored }

/-- A header of a DATA_WRITE to a region key. -/
def toRegion (key offset : Nat) : Header := { header 0 100 offset with target := key, breathLo := 10 }

theorem witness_AdmittedPackets :
    armed.regionFinding (toRegion (8 * 256 + 2) 4092) (zeros 4) { sa := 5, kind := .region, target := 8, index := 8, mayWrite := true } = .pass ∧
    armed.regionFinding (toRegion (8 * 256 + 2) 4093) (zeros 4) { sa := 5, kind := .region, target := 8, index := 8, mayWrite := true } ≠ .pass ∧
    armed.regionFinding (toRegion (9 * 256) 0) (zeros 4096) { sa := 5, kind := .window, target := 4, index := 9, mayWrite := true } = .pass ∧
    armed.regionFinding (toRegion (9 * 256) (2 ^ 48)) (zeros 16) { sa := 5, kind := .window, target := 4, index := 9, mayWrite := true } = .pass ∧
    armed.regionFinding { toRegion (8 * 256 + 2) 4092 with type := 1 } (beBytes 4 4 ++ zeros 12)
      { sa := 5, kind := .region, target := 8, index := 8, mayRead := true } = .pass := by decide +kernel
theorem witness_AdmittedPackets_labels : 2 ^ 31 - 1 ≤ 0 + 2 ^ 31 - 1 ∧ 2 ^ 31 ≤ 0 + 2 ^ 31 ∧
    expandLabel 0 (2 ^ 31 - 1) = 2 ^ 31 - 1 ∧ expandLabel (2 ^ 31) 0 = 0 := by decide

/-- The buffer region being drained. -/
def draining (q : Option Nat) : Dev := { armed with memory := { armed.memory with regions := [(8, { buffer with life := .revoking q })] } }

theorem witness_Revocation :
    find armed.memory.regions 8 = some buffer ∧ ((find (draining (some 3)).memory.regions 8).map Region.life) = some (.revoking (some 3)) ∧
    (draining (some 3)).landingIn 8 = false ∧ ((draining (some 3)).front.flight.any fun f => f.2.usesRegion 8) = false ∧
    ((find (draining none).memory.regions 8).map Region.life) = some (.revoking none) := by decide +kernel
theorem test_revoke_drain : ((find (run (.revokeDrainDone 8 5) (draining none)).memory.regions 8).map Region.life) = some (.released 5) := by
  decide +kernel

/-- A copy of the partner's packet for slot 0 of window 4. -/
def slotCopy (breath : Nat) : SlotCopy := { window := 4, breath := breath, offset := 0, data := [], checks := [] }
/-- A packet of this module's that the partner has not taken yet. -/
def plCopy : PlCopy := { sa := 5, msgId := 100, pktIndex := 0, window := 4, breath := 10 }

/-- A packet queued for egress. -/
def queued : QueuedPacket := { bytes := [1, 2, 3], cells := 1, queuedAt := 0, spilled := false, landed := false }
/-- The key of the queue of a point, service and SA. -/
def egressKey (point service sa : Nat) : Nat := (point * 8 + service) * 32768 + sa
/-- Port 259 up, with a packet of service 0 and one of service 7. -/
def egress : Dev := { serving with
  transport := { ports := [(259, { up := true })] }
  switch := { queues := [(egressKey 259 0 5, { point := 259, service := 0, sa := 5, packets := [queued] }),
    (egressKey 259 7 6, { point := 259, service := 7, sa := 6, packets := [{ queued with bytes := [9] }] })] } }

theorem witness_EgressCopies :
    (∀ x ∈ ({} : Dev).peer.slots, x.window = (slotCopy 3).window → x.breath = (slotCopy 3).breath) ∧
    plCopy ∈ ({ memory := { plCopies := [plCopy] } } : Dev).memory.plCopies ∧
    (egress.pointUp 3 = false ∧ 260 ≤ 260) ∧ (egress.pointUp 259 = true ∧ egress.slicesOut = false ∧ egress.switch.nodes = [] ∧ queued.spilled = false) ∧
    (({ unlimited := false, rate := 5 } : Node).unlimited = false ∧ ({ unlimited := false, rate := 5 } : Node).quota = false) ∧
    ({ rate := 0, unlimited := false } : Node).rate = 0 ∧ (egress.node 1).start < 2 ^ 63 := by decide +kernel
theorem test_copy_in : (run (.plCopyRx (slotCopy 3)) {}).peer.slots = [slotCopy 3] ∧
    (run (.plCopyRx (slotCopy 3)) {}).out = [.peer (.acknowledge 0)] := by decide
theorem test_copy_ack : (run (.plCopyAck 4 10 5 100 0) { linked with memory := { plCopies := [plCopy] } }).memory.plCopies = [] := by decide +kernel
theorem test_egress_control_first : (run (.egressSend 259 5) egress).out = [.frame 259 [1, 2, 3]] ∧
    (run (.egressSend 3 5) egress).out = [] ∧ (run (.egressSend 259 5) egress).switch.queues.length = 1 := by decide +kernel
theorem test_shaper : (({ unlimited := false, rate := 2, burst := 1 } : Node).accrue 10).tokens = 20 ∧
    ({ unlimited := false, rate := 2, tokens := 8000000 } : Node).allows 1 = true ∧
    ({ unlimited := false, rate := 2, tokens := 7999999 } : Node).allows 1 = false ∧
    ({ unlimited := false, rate := 0, tokens := 8000000 } : Node).allows 1 = false := by decide

theorem witness_BreathsClose : find armed.memory.windows 4 = some window := by decide +kernel
theorem test_breath_closes : let d := armed.closeBreath 4 10
    ((find d.memory.windows 4).map fun y => (y.breathOf 10).seq) = some (some armed.front.admitNext) ∧
    d.front.admitNext = armed.front.admitNext + 1 := by decide +kernel

/-! ## Queues and admission -/

/-- An entry of the module's own: opcode, tag, NSID, LBA, and OWN set. -/
def command (op nsid : Nat) : Bytes := leBytes 1 op ++ zeros 3 ++ leBytes 4 nsid ++ zeros 55 ++ [128]

/-- A completion of an I/O command. -/
def done : Completion := .command 1 6 0 0 3 0 0

/-- A BELL queue with one entry, a HOST queue, and their completion queues. -/
def queues : Dev := { serving with
  front := {
    sqs := [(6, { place := .bell, entries := 8, cq := 7, waiting := [(5, command 0x08 1)] }),
            (8, { place := .host, entries := 8, addr := 0x1000, cq := 9, head := 7 })]
    cqs := [(7, { place := .peer, entries := 8, sa := 5, peerCq := 2, peerFull := true, chain := [done] }),
            (9, { place := .host, entries := 8, addr := 0x2000, free := 33, tail := 7, chain := [done], irqEn := true, stallMs := 1 })] }
  transport := linked.transport
  regs := { inForce := [(0xC00004, 0x100)] } }

theorem witness_Polls :
    ((find queues.front.sqs 8).isSome = true ∧ (queues.clock 5).busMaster = true) ∧
    ((find queues.front.sqs 8).any fun q => (queues.clock 5).fetched 8 q && q.taken.isEmpty && decide (0 < (queues.clock 5).fetchRoom 8 q)) = true ∧ queues.polling 8 = false ∧ queues.polling 6 = false ∧
    ((find queues.front.sqs 6).any fun q => (queues.clock 5).fetched 6 q && q.taken.isEmpty && decide (0 < (queues.clock 5).fetchRoom 6 q)) = true ∧
    bitOf (byteAt (padTo 64 (command 8 1)) 63) 7 = true ∧ bitOf (byteAt (padTo 64 (zeros 64)) 63) 7 = false := by decide +kernel
theorem test_poll_host : (run (.sqPoll 8 5) queues).out.length = 1 ∧ (run (.sqPoll 8 5) queues).endpoint.reads.map Prod.snd = [.poll 8 7] := by
  decide +kernel

/-- A module with a read outstanding under tag 2 and a quarantined tag 3. -/
def reading : Dev := { queues with endpoint := { reads := [(2, .poll 8 7)], quarantined := [3] } }

theorem witness_Polls_reads : find reading.endpoint.reads 2 = some (.poll 8 7) ∧ reading.endpoint.waitingReads = [] ∧
    find reading.endpoint.reads 3 = none ∧ 3 ∈ reading.endpoint.quarantined := by decide
theorem test_owned_entry : (run (.hostReadCompletion 2 5 (.data (zeros 64))) reading).endpoint.reads = [] ∧
    (run (.hostReadCompletion 3 5 (.data [])) reading).reg 0xC00028 = 1 ∧ (run (.cplTimeout 2) reading).reg 0xC00030 = 1 ∧
    (run (.cplTimeout 2) reading).endpoint.quarantined.contains 2 = true ∧
    (run (.tagQuarantineEnd 3) reading).endpoint.quarantined = [] := by decide +kernel

theorem witness_FullRings :
    ((find queues.front.cqs 9).any fun q => decide (q.place = .host) && !q.fenced && !q.chain.isEmpty && decide (q.chain.length + 32 ≤ q.free) &&
      decide (q.tail < q.entries)) = true ∧ queues.busMaster = true ∧
    ((find queues.front.cqs 7).any fun q => decide (q.place = .peer) && q.peerFull && !q.fenced && q.outstanding.isEmpty && !q.chain.isEmpty &&
      queues.saActive q.sa) = true ∧ isMouthpiece 9 = false ∧ isMouthpiece 32771 = true := by decide +kernel
theorem test_chain_drain : let d := run (.chainDrain 9 5) queues
    ((find d.front.cqs 9).map fun q => (q.chain, q.tail, q.free)) = some ([], 0, 32) ∧
    (d.out.filter fun o => match o with
      | .hostWrite a _ => a == 0x2000 + 32 * 7
      | _ => false).length = 1 := by decide +kernel

/-- The HOST ring stalled since instant 0. -/
def stalled : Dev := { queues with front := { queues.front with
  cqs := [(9, { place := .host, entries := 8, stallMs := 1, stalled := true, chain := [done] })], sqs := [(8, { place := .host, entries := 8, cq := 9 })] } }

theorem witness_FullRings_stall : 0 + 1 * 1000000000 ≤ 1000000000 ∧ 999999999 < 0 + 1 * 1000000000 := by decide
theorem test_stall_limit : let d := run (.stallLimit 9 1000000000) stalled
    ((find d.front.cqs 9).map fun q => (q.fenced, q.record, q.chain)) = some (true, [done], []) ∧
    ((find d.front.sqs 8).map Sq.fenced) = some true ∧ ((find (run (.stallLimit 9 999999999) stalled).front.cqs 9).map Cq.fenced) = some false := by
  decide +kernel
theorem test_reoffer : let d := run (.responseReoffer 7) queues
    ((find d.front.cqs 7).map fun q => (q.outstanding, q.chain, q.peerFull)) = some ([done], [], false) ∧ d.transport.sent.length = 1 := by
  decide +kernel

/-- An SQ whose deletion waits for its commands. -/
def deleting : Dev := { serving with front := { sqs := [(6, { place := .bell, entries := 8, cq := 7, deleting := some 4 })] } }

theorem witness_QueuesEnd : ((find deleting.front.sqs 6).map Sq.deleting) = some (some 4) ∧ (∀ f ∈ deleting.front.flight, f.2.sq ≠ 6) ∧
    (({} : Dev).field 0x500010 32 1 = 0 ∧ 2 ≤ (2 ^ 32 + 2) % 65536 ∧ (2 ^ 32 + 4096) % 65536 ≤ 4096 ∧ bitOf (2 ^ 32 + 2) 32 = true) ∧
    ((({} : Dev).setReg 0x500010 (2 ^ 32 + 2)).field 0x500010 32 1 = 1 ∧ bitOf 2 32 = false) := by decide +kernel
theorem test_sq_delete_done : (run (.sqDeleteDone 6) deleting).front.sqs = [] := by decide +kernel
theorem test_mp0_enable : let d := run (.mp0Enable 5 (2 ^ 32 + 10 * 2 ^ 16 + 4096)) {}
    ((find d.front.sqs 32768).map fun q => (q.entries, q.pollInterval, q.maxInflight)) = some (4096, 10, 256) ∧ d.field 0x500010 32 1 = 1 ∧
    (run (.mp0Enable 6 0) d).field 0x500010 32 1 = 0 ∧ (run (.mp0Enable 6 0) d).field 0x500010 0 16 = 4096 := by decide +kernel

/-- The submission of the ABORT that waits in the BELL queue. -/
def abortSubmit : Submit := { sq := 6, sa := 5, entry := command 0x08 1, data := { payload := [], fail := 0 }, now := 5 }

theorem witness_EntriesAreTaken : (0x08, Instr.abort abortSubmit) ∈ submitRows abortSubmit ∧
    byteAt (padTo 64 abortSubmit.entry) 0 = 0x08 ∧ bitOf (byteAt (padTo 64 abortSubmit.entry) 63) 7 = true ∧
    ((find queues.front.sqs 6).any fun q => (queues.clock 5).fetched 6 q && q.taken.isEmpty && (q.waiting.head? == some (5, padTo 64 abortSubmit.entry))) =
      true := by decide +kernel
theorem test_entry_taken : ((find (run (.abort abortSubmit) queues).front.sqs 6).map fun q => (q.head, q.waiting)) = some (1, []) := by decide +kernel

/-- Client 3's open transaction. -/
def transaction : Txn := { client := 3, number := 1, beginGen := 0, beganAt := 0 }

/-- A 64-byte entry: opcode byte, flags byte, NSID, LBA, blocks, OWN set. -/
def ioEntry (op flags nsid lba blocks : Nat) : Bytes :=
  leBytes 1 op ++ leBytes 1 flags ++ zeros 2 ++ leBytes 4 nsid ++ leBytes 8 lba ++ leBytes 4 blocks ++ zeros 43 ++ [128]

/-- A command in flight. -/
def flying (op flags lba : Nat) (stage : Stage) : InFlight :=
  { sq := 6, sa := 5, entry := ioEntry op flags 1 lba 4, stamp := 0, breath := 10, gen := 0, stage := stage }

/-- Two overlapping READs wait, a third does not overlap them, and a TXN_BEGIN of client 3 comes with them. -/
def inFlight : Dev := { queues with
  stripes := stored
  control := { txns := [(3, transaction)] }
  front := { queues.front with
    admitNext := 4
    sqs := [(6, { place := .bell, entries := 8, cq := 7, urgentLeft := 2, arb := { w0 := 1, share := 1 } }), (32771, { place := .bell, entries := 8, cq := 32771 })]
    flight := [(1, flying 1 0 0 .waiting), (2, flying 1 0 3 .waiting), (3, flying 1 4 8 .waiting)] } }

theorem witness_AdmissionVerdicts :
    isMouthpiece 6 = false ∧ byteAt (ioEntry 0x40 0 0 0 0) 0 ∉ [1, 2, 3, 8] ∧ isMouthpiece 32770 = true ∧ find inFlight.control.txns 2 = none ∧
    Verdict.andThen (inFlight.entryVerdict 6 5 (ioEntry 3 0 1 4096 1)) (inFlight.lateVerdict 6 4 (ioEntry 3 0 1 4096 1) { payload := [], fail := 0 }) =
      some (0x12, 4096) ∧
    0x71 ∈ txnOpcodes ∧ find inFlight.control.txns (32771 - 32768) = some transaction ∧
    Verdict.andThen (inFlight.entryVerdict 32771 5 (ioEntry 0x71 0 0 0 0)) (inFlight.lateVerdict 32771 4 (ioEntry 0x71 0 0 0 0) { payload := [], fail := 0 }) =
      none := by decide +kernel
theorem witness_AdmissionVerdicts_abort :
    find inFlight.front.flight 1 = some (flying 1 0 0 .waiting) ∧ byteAt (flying 1 0 0 .waiting).entry 0 ∈ [1, 2, 3] ∧
    (byteAt (flying 1 0 0 .passed).entry 0 ∉ [1, 2, 3] ∨ (flying 1 0 0 .passed).stage ∉ [.waiting, .dispatched, .awaiting]) := by decide +kernel
theorem test_abort : (find (inFlight.decideAbort 3 (some 1)).front.flight 1).isNone = true ∧
    (find (inFlight.decideAbort 3 (some 1)).front.flight 3).isNone = true := by decide +kernel
theorem test_recorded : (inFlight.admitEntry 32771 5 (ioEntry 0x71 0 0 0 0) { payload := [], fail := 0 }).control.txns =
    [(3, { transaction with recorded := [4] })] := by decide +kernel

/-- The commit of breath 3 of window 4 may start, and early cunit 0 of breath 5. -/
def closedBreath (early : Bool) : Dev := { inFlight with memory := { inFlight.memory with
  windows := [(4, { window with slotBlocks := 16, breaths := [if early then (5, { taken := 1 }) else (3, { seq := some 0, covered := 0xFFFF })] })] } }

theorem witness_Dispatch : inFlight.power.saving = none ∧ inFlight.threadFree 9 = true ∧ inFlight.threadFree 384 = false ∧ inFlight.mayDispatch = true ∧
    inFlight.startable = [] ∧ inFlight.startableEarly = [] ∧ ((inFlight.clock 5).pickCommand.map Prod.fst) = some 3 ∧
    (∀ x ∈ inFlight.front.sqs, x.2.currentClass < 4) ∧ bitOf (byteAt (flying 1 4 8 .waiting).entry 1) 2 = true ∧
    rangeOf (flying 1 0 3 .waiting).entry = some (3, 4) ∧ inFlight.held 2 1 (3, 4) = true := by decide +kernel
theorem witness_Dispatch_windows : firstKey (closedBreath false).startable = some [4, 3, 4] ∧ (closedBreath false).startable ≠ [] ∧
    (∀ k ∈ (closedBreath false).startable ++ (closedBreath false).startableEarly, keyBefore (k.take 3) [4, 3, 4] = false) ∧
    (closedBreath true).startableEarly.find? (fun k => k.drop 2 == [4, 0] && !(closedBreath true).startsBefore k) = some [6, 5, 4, 0] ∧
    (find (closedBreath true).memory.windows 4).isSome = true := by decide +kernel
theorem test_dispatch : ((find (run (.commandDispatch 9 5) inFlight).front.flight 3).map InFlight.stage) = some .dispatched ∧
    ((find (run (.windowCommitStart 9 5) (closedBreath false)).chanters.threads 9).map fun a => (a.work, a.covered)) = some (.commit 4 3, 0xFFFF) ∧
    ((find (run (.earlyCunitStart 9 4 0 5) (closedBreath true)).chanters.threads 9).map fun a => (a.work, a.covered)) = some (.early 4 5 0, 0xFFFF) := by
  decide +kernel

/-! ## Gullot threads -/

/-- An activation of a WRITE of 4 blocks at LBA 16, at word 2 of 8. g5 addresses c1 at 8, g6 holds 2^63, g7 holds 3. -/
def activation : Activation := {
  work := .command 3, progId := 1, version := 1, codeWords := 8, pc := 2
  regs := [(5, 0x0001000000000008), (6, 0x8000000000000000), (7, 3)]
  caps := [(1, { area := .scratch, base := 0, length := 64, mayRead := true, mayWrite := true, engSrc := false, engDst := false }),
    (2, { area := .data, base := 0, length := 16384, mayRead := true, mayWrite := false, engSrc := true, engDst := false }),
    (4, { area := .staging, base := 0, length := 131072, mayRead := true, mayWrite := true, engSrc := true, engDst := true })]
  frame := zeros 0x28 ++ leBytes 8 4096 ++ zeros 16 ++ ioEntry 2 0 1 16 4 ++ zeros 128
  scratch := [⟨8, 0xEF⟩, ⟨9, 0xBE⟩], limit := 1, nsid := 1, cq := 7, stag := 9, gen := 1, opcode := 2 }

/-- Thread 9 runs an activation. -/
def threaded (a : Activation) : Dev := { serving with
  chanters := { threads := [(9, a)] }, stripes := stored
  front := { flight := [(3, { sq := 6, sa := 5, entry := ioEntry a.opcode 0 1 16 4, stamp := 0, breath := 0, gen := 0, stage := .dispatched })] } }

/-- The activation with registers from g8 on. -/
def withOperands (a b c d : Nat) : Activation := (((activation.setReg 8 a).setReg 9 b).setReg 10 c).setReg 11 d

theorem witness_CanRun : CanRun (at' (threaded activation)) 9 activation ∧
    CanRun (at' (threaded { activation with pc := 7, sinsn := 65534 })) 9 { activation with pc := 7, sinsn := 65534 } ∧
    ¬ CanRun (at' (threaded { activation with pc := 8 })) 9 { activation with pc := 8 } := by
  unfold CanRun; decide +kernel

/-- Register `n` after one instruction. -/
def gAfter (i : Instr) (n : Nat) : Option Nat := (find (run i (threaded activation)).chanters.threads 9).map fun a => a.reg n

theorem test_arithmetic : gAfter (.add 9 1 6 6) 1 = some 0 ∧ gAfter (.sub 9 1 0 7) 1 = some (2 ^ 64 - 3) ∧ gAfter (.mul 9 1 6 7) 1 = some (2 ^ 63) ∧
    gAfter (.mulhu 9 1 6 7) 1 = some 1 ∧ gAfter (.divu 9 1 7 0) 1 = some (2 ^ 64 - 1) ∧ gAfter (.remu 9 1 7 0) 1 = some 3 ∧
    gAfter (.slt 9 1 6 7) 1 = some 1 ∧ gAfter (.sltu 9 1 6 7) 1 = some 0 ∧ gAfter (.addi 9 1 7 0xFFFF) 1 = some 2 ∧
    gAfter (.add 9 0 7 7) 0 = some 0 := by decide +kernel
theorem test_bits : gAfter (.and 9 1 6 7) 1 = some 0 ∧ gAfter (.or 9 1 6 7) 1 = some (2 ^ 63 + 3) ∧ gAfter (.xor 9 1 7 7) 1 = some 0 ∧
    gAfter (.not 9 1 0) 1 = some (2 ^ 64 - 1) ∧ gAfter (.sll 9 1 7 7) 1 = some 24 ∧ gAfter (.srl 9 1 6 7) 1 = some (2 ^ 60) ∧
    gAfter (.sra 9 1 6 7) 1 = some (2 ^ 64 - 2 ^ 60) ∧ gAfter (.andi 9 1 7 0xFFF2) 1 = some 2 ∧ gAfter (.ori 9 1 7 0x8000) 1 = some 0x8003 ∧
    gAfter (.xori 9 1 7 1) 1 = some 2 := by decide +kernel
theorem test_immediates : gAfter (.slti 9 1 7 0xFFFF) 1 = some 0 ∧ gAfter (.sltiu 9 1 7 0xFFFF) 1 = some 1 ∧ gAfter (.slli 9 1 7 62) 1 = some (3 * 2 ^ 62) ∧
    gAfter (.srli 9 1 6 63) 1 = some 1 ∧ gAfter (.srai 9 1 6 63) 1 = some (2 ^ 64 - 1) ∧ gAfter (.liq 9 6 0 0xABCD) 6 = some (2 ^ 63 + 0xABCD) ∧
    gAfter (.liq 9 6 3 1) 6 = some (2 ^ 48) ∧ gAfter (.pcnt 9 1 7) 1 = some 2 ∧ gAfter (.ctz 9 1 6) 1 = some 63 ∧ gAfter (.ctz 9 1 0) 1 = some 64 ∧
    gAfter (.clz 9 1 7) 1 = some 62 ∧ gAfter (.clz 9 1 0) 1 = some 64 := by decide +kernel

/-- The span of `n` bytes of scratch. -/
def scratchAt (start n : Nat) : Span := { area := .scratch, start := start, length := n }
/-- The activation with an outstanding `zd` into a span. -/
def writing (p : Span) : Activation := { activation with
  tickets := [(0, { op := .zd, a := 0, b := 0, c := 0, d := 0, sources := [], dests := [p] })] }

theorem witness_LoadsAndStores : Reaches activation (activation.reg 5) 0xFFF8 8 Cap.mayRead (scratchAt 0 8) ∧
    Reaches activation (activation.reg 5) 48 8 Cap.mayWrite (scratchAt 56 8) ∧ activation.inDest (scratchAt 0 8) = false ∧
    activation.inSource (scratchAt 0 8) = false ∧ (threaded activation).unlanded activation (scratchAt 0 8) = false ∧
    Reaches (writing (scratchAt 0 64)) (activation.reg 5) 0 8 Cap.mayRead (scratchAt 8 8) ∧
    (writing (scratchAt 0 64)).inDest (scratchAt 8 8) = true := by
  refine ⟨⟨by decide, _, 0, rfl, ?_⟩, ⟨by decide, _, 56, rfl, ?_⟩, ?_, ?_, ?_, ⟨by decide, _, 8, rfl, ?_⟩, ?_⟩ <;> decide +kernel
theorem witness_LoadsAndStores_faults : 2 ^ 51 ≤ activation.reg 6 ∧
    (activation.reg 5 < 2 ^ 51 ∧ signedOf (activation.reg 5) 48 + signedOf 0xFFF7 16 < 0) ∧
    (∃ c, find activation.caps (activation.reg 5 / 2 ^ 48) = some c ∧ (c.length : Int) < signedOf (activation.reg 5) 48 + signedOf 49 16 + 8) ∧
    find activation.caps (activation.reg 7 / 2 ^ 48) = none ∧
    (∃ c, find (withOperands (2 ^ 49) 0 0 0).caps ((withOperands (2 ^ 49) 0 0 0).reg 8 / 2 ^ 48) = some c ∧ c.mayWrite = false) ∧
    (∃ c, find activation.caps (activation.reg 5 / 2 ^ 48) = some c ∧ c.mayRead = true ∧
      ((c.base : Int) + (signedOf (activation.reg 5) 48 + signedOf 1 16)) % 8 ≠ 0) := by
  refine ⟨by decide +kernel, by decide +kernel, ⟨_, rfl, by decide +kernel⟩, by decide +kernel, ⟨_, rfl, by decide +kernel⟩, _, rfl, by decide +kernel⟩
theorem test_loads : gAfter (.ldB 9 1 5 0) 1 = some 0xEF ∧ gAfter (.ldH 9 1 5 0) 1 = some 0xBEEF ∧ gAfter (.ldW 9 1 5 0xFFFC) 1 = some 0 ∧
    gAfter (.ldD 9 1 5 0) 1 = some 0xBEEF ∧ gAfter (.ldD 9 1 5 1) 1 = none := by decide +kernel
theorem test_stores : ((find (run (.stH 9 7 5 1) (threaded activation)).chanters.threads 9)).isNone = true ∧
    ((find (run (.stB 9 7 5 1) (threaded activation)).chanters.threads 9).map Activation.scratch) = some [⟨8, 0xEF⟩, ⟨9, 3⟩] ∧
    ((find (run (.stH 9 0 5 0) (threaded activation)).chanters.threads 9).map Activation.scratch) = some [] ∧
    ((find (run (.stW 9 7 5 0) (threaded activation)).chanters.threads 9).map Activation.scratch) = some [⟨8, 3⟩] ∧
    ((find (run (.stD 9 6 5 0) (threaded activation)).chanters.threads 9).map Activation.scratch) = some [⟨15, 0x80⟩] := by decide +kernel

theorem witness_ControlFlow : (2 : Int) + signedOf 0xFFFE 16 = (0 : Nat) ∧ activation.reg 7 < activation.codeWords ∧ activation.codeWords ≤ activation.reg 5 ∧
    activation.reg 7 < 2 ^ 48 ∧ 2 ^ 48 ≤ activation.reg 5 ∧ (find activation.caps 1).isSome = true ∧
    (∃ c, find activation.caps 1 = some c ∧ activation.reg 7 + activation.reg 0 ≤ c.length ∧ c.length < activation.reg 7 + activation.reg 5 ∧
      c.length < 2 ^ 40) := by
  refine ⟨by decide, by decide, by decide, by decide, by decide, rfl, _, rfl, by decide +kernel⟩

/-- The word index after one instruction. -/
def pcAfter (i : Instr) : Option Nat := (find (run i (threaded activation)).chanters.threads 9).map Activation.pc

theorem test_branches : pcAfter (.beq 9 0 0 0xFFFE) = some 0 ∧ pcAfter (.beq 9 0 7 5) = some 3 ∧ pcAfter (.bne 9 0 7 5) = some 7 ∧
    pcAfter (.blt 9 6 0 5) = some 7 ∧ pcAfter (.bge 9 6 0 5) = some 3 ∧ pcAfter (.bltu 9 6 0 5) = some 3 ∧ pcAfter (.bgeu 9 6 0 5) = some 7 := by
  decide +kernel
theorem test_jumps : pcAfter (.j 9 5) = some 7 ∧ pcAfter (.jal 9 1 0x1FFFFF) = some 1 ∧ gAfter (.jal 9 1 5) 1 = some 3 ∧ pcAfter (.jr 9 7) = some 3 ∧
    pcAfter (.jr 9 5) = none := by decide +kernel
theorem test_capabilities : gAfter (.mkca 9 1 7 7) 1 = some (7 * 2 ^ 48 + 3) ∧ gAfter (.mkca 9 1 7 5) 1 = none ∧ gAfter (.rds 9 1 2) 1 = some 9 ∧
    ((find (run (.capn 9 3 1 7 7 1) (threaded activation)).chanters.threads 9).map fun a => (find a.caps 3).map fun c => (c.base, c.length, c.mayRead, c.mayWrite)) =
      some (some (3, 3, true, false)) := by decide +kernel

/-! ## Engine instructions -/

/-- The capability address of an offset in c4. -/
def c4 (off : Nat) : Nat := 4 * 2 ^ 48 + off
/-- `n` bytes of c4. -/
def stagingAt (start n : Nat) : Span := { area := .staging, start := start, length := n }
/-- `n` bytes of c2. -/
def dataAt (start n : Nat) : Span := { area := .data, start := start, length := n }

/-- An activation's operand as far as it can be compared: the span, or the fault code. -/
def operandIs (a : Activation) (ca n : Nat) (right : Cap → Bool) (p : Span) : Bool := match a.operand ca n right with
  | .ok q => q == p
  | .error _ => false
/-- The fault code of an operand. -/
def operandFault (a : Activation) (ca n : Nat) (right : Cap → Bool) : Nat := match a.operand ca n right with
  | .ok _ => 0
  | .error c => c

/-- Operands of `zc`: 4 blocks of c2 at LBA 16 to c4. -/
def zcCall : Activation := withOperands (2 * 2 ^ 48) 0 (c4 0) (4 + 16 * 65536)
/-- Operands of `zd`: 100 bytes of c4 to c4. -/
def zdCall : Activation := withOperands (c4 0) (c4 32768) 0 (4 + 100 * 65536)
/-- Operands of `xts`: in place, 16 bytes of c4 at LBA 16. -/
def xtsCall : Activation := withOperands (c4 0) (c4 0) 16 16
/-- Operands of `rdl`: the last of the READ's blocks to c4. -/
def rdlCall : Activation := { withOperands (c4 0) 0 19 1 with opcode := 1 }
/-- Operands of `xout`: a block of c4 to the READ's last block. -/
def xoutCall : Activation := { withOperands (c4 0) 0 12288 4096 with opcode := 1 }
/-- Operands of `unmap`: all four blocks. -/
def unmapCall : Activation := { withOperands 16 4 0 0 with opcode := 3 }

theorem witness_EngineIssues :
    (operandIs zcCall (zcCall.reg 8) (4 * 4096) Cap.engSrc (dataAt 0 16384) && (zcCall.reg 9 == 0) &&
      operandIs zcCall (zcCall.reg 10) (16 + 4112 * 4) Cap.engDst (stagingAt 0 16464) &&
      !(threaded zcCall).issueWaits zcCall ([dataAt 0 16384], [stagingAt 0 16464])) = true ∧
    (operandIs zdCall (zdCall.reg 8) (zdCall.reg 11 / 65536 % 2 ^ 32) Cap.engSrc (stagingAt 0 100) &&
      operandIs zdCall (zdCall.reg 9) (4 * 4096) Cap.engDst (stagingAt 32768 16384) && (zdCall.reg 10 == 0) &&
      !(threaded zdCall).issueWaits zdCall ([stagingAt 0 100], [stagingAt 32768 16384])) = true ∧
    (operandIs xtsCall (xtsCall.reg 8) 16 Cap.engSrc (stagingAt 0 16) && operandIs xtsCall (xtsCall.reg 9) 16 Cap.engDst (stagingAt 0 16) &&
      !(threaded xtsCall).issueWaits xtsCall ([stagingAt 0 16], [stagingAt 0 16])) = true ∧
    (operandIs rdlCall (rdlCall.reg 8) 4096 Cap.engDst (stagingAt 0 4096) && !(threaded rdlCall).issueWaits rdlCall ([], [stagingAt 0 4096]) &&
      rdlCall.covers 19 1 && !rdlCall.covers 20 1) = true ∧
    (operandIs xoutCall (xoutCall.reg 8) 4096 Cap.engSrc (stagingAt 0 4096) && !xoutCall.chkXfer && (xoutCall.range.2 == 4) &&
      !(threaded xoutCall).issueWaits xoutCall ([stagingAt 0 4096], [])) = true ∧
    (unmapCall.covers 16 4 && !(threaded unmapCall).journalFull && decide ((threaded unmapCall).tailEntries < 2 ^ 20) && !(threaded unmapCall).issueWaits unmapCall ([], [])) = true ∧
    (operandIs zdCall (zdCall.reg 8) 64 Cap.mayWrite (stagingAt 0 64) && operandIs xtsCall (xtsCall.reg 8) 64 Cap.mayRead (stagingAt 0 64) &&
      operandIs xtsCall (xtsCall.reg 9) (xtsCall.reg 10) Cap.engDst (stagingAt 0 16) &&
      !(threaded xtsCall).issueWaits xtsCall ([stagingAt 0 64], [stagingAt 0 16])) = true ∧
    operandFault (withOperands (2 * 2 ^ 48 + 1) 0 0 4) (2 * 2 ^ 48 + 1) 16384 Cap.engSrc = 1 ∧
    zcCall.work.kind = 0 := by decide +kernel

/-- The operation and the status of the refusal, 0 for none, of the ticket that one instruction takes. -/
def issued (i : Instr) (a : Activation) : Option (EngineOp × Nat) :=
  (find (run i (threaded a)).chanters.threads 9).bind fun b => (find b.tickets 0).map fun k => (k.op, (k.refused.map Prod.fst).getD 0)

theorem test_issues : issued (.zc 9 1 8) zcCall = some (.zc, 0) ∧ issued (.zd 9 1 8) zdCall = some (.zd, 0) ∧
    issued (.xts 9 1 8 false) xtsCall = some (.xtsEncrypt, 0) ∧ issued (.xts 9 1 8 true) xtsCall = some (.xtsDecrypt, 0) ∧
    issued (.rdl 9 1 8) rdlCall = some (.rdl, 0) ∧ issued (.rdl 9 1 8) { rdlCall with opcode := 2 } = some (.rdl, 0x14) ∧
    issued (.zc 9 1 8) (withOperands (2 * 2 ^ 48 + 1) 0 0 4) = none := by decide +kernel
theorem test_issues_io : issued (.xout 9 1 8) xoutCall = some (.xout, 0) ∧ issued (.unmap 9 1 8) unmapCall = some (.unmap, 0) ∧
    issued (.mapq 9 1 8) zdCall = some (.mapq, 0) ∧ issued (.rdc 9 1 8) xtsCall = some (.rdc, 0) := by decide +kernel

/-- Operands of `app`: 64 bytes of c4, sealed and ready, four blocks at LBA 16. -/
def appCall : Activation := { withOperands (c4 0) 64 16 4 with
  marks := [{ span := stagingAt 0 64, lba := 16, blocks := 4, sealedReady := true }] }
/-- The ticket of that append. -/
def appTicket : Ticket := { op := .app, a := c4 0, b := 64, c := 16, d := 4, sources := [stagingAt 0 64], dests := [], refused := none }

theorem witness_AppendIssues : (operandIs appCall (appCall.reg 8) (appCall.reg 9) Cap.engSrc (stagingAt 0 64) &&
      !(threaded appCall).issueWaits appCall ([stagingAt 0 64], []) && !(threaded appCall).journalFull && decide ((threaded appCall).tailEntries < 2 ^ 20) &&
      !(threaded appCall).setBusy appCall && ((threaded appCall).reservePages 1 16 4).1) = true ∧
    (∃ m ∈ appCall.marks, m.sealedReady = true ∧ m.span = stagingAt 0 64 ∧ m.lba = 16 ∧ m.blocks = 4) ∧
    appCall.appendStatus appTicket = 0 ∧ ({ appCall with marks := [] } : Activation).appendStatus appTicket = 0x14 ∧
    ({ appCall with opcode := 1 } : Activation).appendStatus appTicket = 0x14 ∧ appCall.covers 17 4 = false ∧ appCall.covers 16 4 = true ∧
    appCall.reg 11 = 4 := by
  refine ⟨by decide +kernel, ⟨_, List.mem_singleton.2 rfl, by decide⟩, ?_⟩; decide +kernel
theorem test_append : issued (.app 9 1 8) appCall = some (.app, 0) ∧
    ((find (run (.app 9 1 8) (threaded appCall)).front.flight 3).map InFlight.stage) = some .passed ∧
    issued (.app 9 1 8) { appCall with marks := [] } = some (.app, 0x14) := by decide +kernel

/-- A ticket of an operation under number 0, complete or not. -/
def holding (k : Ticket) (a : Activation) : Activation := { a with tickets := [(0, k)] }
/-- A completed ticket. -/
def complete : Ticket := { op := .zd, a := 0, b := 0, c := 0, d := 0, sources := [], dests := [], result := some (2 ^ 32 + 1) }

theorem witness_WaitPostHaltNote : find (holding complete activation).tickets ((holding complete activation).reg 0) = some complete ∧
    find (holding { complete with result := none } activation).tickets 0 = some { complete with result := none } ∧
    find activation.tickets (activation.reg 7) = none ∧ activation.work = .command 3 ∧ activation.posted = false ∧ activation.sealed = false ∧
    activation.pendings = [] ∧ (∀ k ∈ (holding complete activation).tickets, k.2.result.isSome = true) ∧
    ({ activation with posted := true } : Activation).posted = true ∧ ({ activation with work := .early 4 5 0 } : Activation).work.kind = 2 ∧
    activation.noted = false ∧ activation.codeWords ≤ ({ activation with pc := 8 } : Activation).pc ∧
    activation.limit * 65536 ≤ ({ activation with sinsn := 65535 } : Activation).sinsn + 1 ∧ (threaded activation).chanters.notes < 1000 := by decide +kernel
theorem test_wait : ((find (run (.wait 9 1 0) (threaded (holding complete activation))).chanters.threads 9).map fun a => (a.reg 1, a.tickets)) =
      some (2 ^ 32 + 1, []) ∧
    run (.wait 9 1 0) (threaded (holding { complete with result := none } activation)) = threaded (holding { complete with result := none } activation) ∧
    gAfter (.wait 9 1 0) 1 = none := by decide +kernel
theorem test_post : ((find (run (.post 9 8 5) (threaded activation)).chanters.threads 9).map fun a => (a.posted, a.pc)) = some (true, 3) ∧
    (find (run (.post 9 8 5) (threaded activation)).front.flight 3).isNone = true ∧
    ((find (run (.post 9 8 5) (threaded { activation with posted := true })).chanters.threads 9)).isNone = true := by decide +kernel
theorem test_halt : let d := run (.halt 9 5) (threaded { activation with posted := true })
    d.chanters.threads = [] ∧ (newest d).isNone = true ∧
    ((newest (run (.halt 9 5) (threaded activation))).map fun e => (e.2.1, e.2.2.2.map Prod.snd)) = some (0x20, [1, 1, 8, 2, 0, 65]) := by decide +kernel
theorem test_note : newest (run (.note 9 7) (threaded activation)) = some (Cls.control, 0x22, 1, [(4, 1), (8, 3), (4, 0), (4, 0)]) ∧
    (newest (run (.note 9 7) (threaded { activation with noted := true }))).isNone = true := by decide +kernel

/-- A ticket in service on lane 0, with spans. -/
def inService (op : EngineOp) (a c d : Nat) (src dst : List Span) : Ticket :=
  { op := op, a := a, b := 0, c := c, d := d, sources := src, dests := dst, lane := some 0 }
/-- Thread 9 holds one ticket. -/
def engaged (k : Ticket) : Dev := threaded (holding k activation)

/-- One zero block in 16 bytes: the stream that a `zd` can decode. -/
def zeroStream : Bytes := (encodeStream 0 0 16 1 (zeros 4096) (checkFields (zeros 4096) 0 16 1)).bytes

theorem witness_EngineCompletions : find (engaged (inService .zc 0 0 (1 + 16 * 65536) [dataAt 0 4096] [stagingAt 0 4128])).chanters.threads 9 =
      some (holding (inService .zc 0 0 (1 + 16 * 65536) [dataAt 0 4096] [stagingAt 0 4128]) activation) ∧
    (∀ op ∈ EngineOp.all, serving.lanesOut op = false) ∧
    ({ serving with compression := { fenced := List.range 32 } } : Dev).lanesOut .zc = true ∧
    (decodeStream zeroStream 1).isSome = true ∧ decodeStream (zeros 100) 1 = none ∧ find stored.namespaces activation.nsid ≠ none ∧
    (∀ i < 4, (engaged (inService .rdl 0 16 4 [] [stagingAt 0 16384])).resolve 1 (16 + i) = .unwritten) := by decide +kernel

/-- The 64-bit result of ticket 0. -/
def resultOf (d : Dev) : Option Nat := (find d.chanters.threads 9).bind fun a => (find a.tickets 0).bind Ticket.result

theorem test_zc_complete : let d := run (.zcComplete 9 0 5) (engaged (inService .zc 0 0 (1 + 16 * 65536) [dataAt 0 4096] [stagingAt 0 4128]))
    (resultOf d).map (· % 2 ^ 32) = some 0 ∧
    ((find d.chanters.threads 9).map fun a => a.marks.map fun m => (m.lba, m.blocks, m.sealedReady)) = some [(16, 1, false)] := by decide +kernel
theorem test_refused_complete : resultOf (run (.zdComplete 9 0 5) (engaged { inService .zd 0 0 1 [] [] with refused := some (0x11, 3) })) = some 0x30011 ∧
    resultOf (run (.zdComplete 9 0 5) (engaged (inService .zd 0 0 1 [stagingAt 0 100] [stagingAt 200 4096]))) = some 0x30 ∧
    resultOf (run (.xtsComplete 9 0 5) (engaged { inService .xtsEncrypt 0 16 16 [] [] with refused := some (0x11, 0) })) = some 0x11 := by decide +kernel
theorem test_rdl_complete : resultOf (run (.rdlComplete 9 0 [] 5) (engaged (inService .rdl 0 16 1 [] [stagingAt 0 4096]))) = some (4096 * 2 ^ 32) ∧
    resultOf (run (.unmapComplete 9 0 5) (engaged (inService .unmap 16 0 0 [] []))) = some 0 ∧
    resultOf (run (.mapqComplete 9 0 5) (engaged (inService .mapq 0 16 1 [] [stagingAt 0 64]))) = some (64 * 2 ^ 32) := by decide +kernel
/-- The append's record in the open stripe 0 of set 0. -/
def appended : Dev := { engaged { inService .app 0 16 4 [] [] with record := some 1 } with
  stripes := { stored with
    sets := [(0, { mirror with stripes := [(0, { seq := 0, generation := 1, host := true, life := .opened, used := 64, unwritten := [0, 1, 2] })] })]
    records := [(1, { set := 0, kind := .stream, nsid := 1, first := 16, blocks := 4, body := [], stripe := 0, offset := 0, generation := 1 })] } }

theorem test_app_complete : resultOf (run (.appComplete 9 0 5) appended) = none ∧
    resultOf (run (.appComplete 9 0 5) { appended with peer := { linkUp := true, state := .standbyReady } }) = some 0 := by decide +kernel

/-! ## Lanes, randomness and the test mode -/

/-- The operation of thread 9 in service on a lane, or stopped. -/
def onCipher (lane : Option Nat) (stopped : Bool) : Dev :=
  { engaged { inService .xtsEncrypt 0 16 16 [stagingAt 0 16] [stagingAt 0 16] with lane := lane, stopped := stopped } with
    cipher := { xtsContexts := if stopped then [{ thread := 9, ticket := 0, seq := 0 }] else [] } }
/-- The compress operation of thread 9 in service on lane 2, or stopped. -/
def onCoder (lane : Option Nat) (stopped : Bool) : Dev :=
  engaged { inService .zc 0 0 (1 + 16 * 65536) [dataAt 0 4096] [stagingAt 0 4128] with lane := lane, stopped := stopped }

theorem witness_Lanes : ((onCoder (some 2) false).onLane 2).isSome = true ∧ ((onCoder (some 2) false).running.length = 1) ∧
    ((onCoder (some 2) false).stoppedOn true).length < 64 ∧ ((onCipher (some 70) false).onLane 70).isSome = true ∧
    (onCoder none true).onLane 2 = none ∧ ((onCoder none true).firstServed ((onCoder none true).stoppedOn true)).isSome = true ∧
    (onCipher none true).onLane 70 = none ∧ ({} : Cipher).gcmContexts.length < 64 ∧
    64 ≤ (List.replicate 64 ({ thread := 1, ticket := 0, seq := 0 } : CipherContext)).length := by decide +kernel
theorem test_lane_stop : (run (.cpeLaneStop 2 7 8) (onCoder (some 2) false)).reg 0x700010 = 1 ∧
    (run (.cipLaneStop 70 9 0) (onCipher (some 70) false)).cipher.xtsContexts.length = 1 ∧
    (run (.cipLaneStop 3 5 100) serving).cipher.gcmContexts.length = 1 := by decide +kernel
theorem test_lane_resume : ((run (.cpeLaneResume 2) (onCoder none true)).onLane 2).isSome = true ∧
    ((run (.cipLaneResume 70 9 0) (onCipher none true)).onLane 70).isSome = true ∧
    (run (.cipLaneResume 70 9 0) (onCipher none true)).reg 0x800020 = 1 := by decide +kernel

/-- A DEK in the key table. -/
def dek (life : KeyLife) : KeyEntry := { type := 2, key := zeros 64, life := life, destroyGen := 1, erase := true }
/-- Both entropy sources failing, and key 9 being destroyed. -/
def failing : Dev := { serving with cipher := { failing := [0, 1], stopped := true, maskStale := true, keys := [(9, dek .destroying)] }, stripes := stored }

theorem witness_Randomness : (1 ∈ failing.cipher.failing ∧ failing.cipher.stopped = true) ∧ find failing.cipher.keys 9 = some (dek .destroying) ∧
    failing.control.halted = false ∧ (∀ m ∈ failing.stripes.namespaces, m.2.keyId = 9 → failing.workOn m.1 1 = false) ∧
    (∀ e, find ({} : Dev).cipher.keys 9 = some e → e.life = .live) := by decide +kernel
theorem test_rng : (run (.rngFault [0] 2 5) {}).cipher.failing = [0] ∧ (run (.rngFault [1] 2 5) { cipher := { failing := [0] } }).cipher.stopped = true ∧
    (run (.rngRecovered 1 5) failing).cipher.stopped = false ∧ (run .drbgReseed {}).cipher.reseeds = 1 ∧ (run (.maskReseed 95) {}).cipher.maskReseeds = 1 ∧
    run .drbgReseed failing = failing := by decide +kernel
theorem test_key_destroyed : (run (.keyDestroyed 9) failing).cipher.keys = [] ∧
    newest (run (.keyDestroyed 9) failing) = some (Cls.security, 0x11, 9, [(1, 1), (4, 0)]) := by decide +kernel

/-- A module in the lane test mode with LENGTH 16. -/
def inTest (len : Nat) : Dev := (run (.cipTestEntered 0) {}).setReg 0xD08000 len

theorem witness_LaneTest : ({} : Dev).testing = false ∧ ({} : Dev).field 0x40 0 1 = 0 ∧ (inTest 16).testing = true ∧ (inTest 16).field 0xD08000 0 13 = 16 ∧
    (inTest 4096).field 0xD08000 0 13 = 4096 ∧ (inTest 4096).field 0xD08000 16 13 = 0 ∧
    (∃ k ∈ ({ serving with cipher := { keys := [(9, dek .live)] } } : Dev).cipher.keys, k.2.type = 2 ∧ k.2.life = .live) := by
  refine ⟨by decide +kernel, by decide +kernel, by decide +kernel, by decide +kernel, by decide +kernel, by decide +kernel, _, List.mem_singleton.2 rfl, by decide⟩
/-- AES-256 of the zero key on the zero block (FIPS 197's algorithm; the published all-zero vector). -/
theorem test_aes_zero : Aes.encrypt (zeros 32) (zeros 16) =
    [0xdc, 0x95, 0xc0, 0x78, 0xa2, 0x40, 0x89, 0x89, 0xad, 0x48, 0xa2, 0x14, 0x92, 0x84, 0x20, 0x87] := by decide +kernel
theorem test_lane_test : ((inTest 16).laneTest 1).map Prod.snd = some 5 ∧ ((inTest 16).laneTest 2).map Prod.snd = some 1 ∧
    (inTest 15).laneTest 3 = none ∧ (run .cipTestExit (inTest 16)).testing = false := by decide +kernel

theorem witness_EncodedStreams : coderOk 0 = true ∧ (Coder.of 0).method ≠ 1 ∧ (zeros 4096).length = 4096 * 1 ∧ (zeros 16).length = 16 * 1 := by decide +kernel
theorem witness_EncodedStreams_dict : ∃ c, coderOk c = true ∧ (Coder.of c).method = 1 := ⟨1, by decide, by decide⟩

/-! ## Counts, sets, stripes, landing and samples -/

/-- Something of everything that is counted by the second. -/
def counted : Dev := { serving with
  transport := { earlyAge := some 9, sas := [(5, { sa5 with authFails := 2 })], ports := [(3, { up := true, secondKex := 1, secondMalformed := 4 })] }
  switch := { sampleDrops := 1, cellLoss := some (1, 2, 3, 4), refusing := some (1, 0), refused := 6 }
  bays := [(3, { state := .qualified, secondTimeouts := 1, secondBadDma := 2, firstBadDma := 0x100 })]
  endpoint := { secondCounts := [(1, 5)] }, counters := { secondDrops := (1, 0) }, compression := { secondUndecodable := 1 }
  protection := { corrected := [(4, 7)] }, memory := { windows := [(4, { window with secondLate := 1 })] } }

theorem witness_Counts : flag counted.transport.earlyAge.isSome ≠ 0 ∧ ((find counted.transport.sas 5).map Sa.authFails) = some 2 ∧
    (counted.port 3).secondKex ≠ 0 ∧ (counted.port 3).secondMalformed ≠ 0 ∧ counted.switch.sampleDrops ≠ 0 ∧ (counted.bay 3).secondTimeouts ≠ 0 ∧
    (counted.bay 3).secondBadDma ≠ 0 ∧ find counted.endpoint.secondCounts 1 = some 5 ∧ counted.counters.secondDrops.1 ≠ 0 ∧
    counted.compression.secondUndecodable ≠ 0 ∧ find counted.protection.corrected 4 = some 7 ∧ counted.switch.cellLoss = some (1, 2, 3, 4) ∧
    find counted.memory.windows 4 = some { window with secondLate := 1 } ∧ (window.secondLate + window.secondBusy = 0) ∧
    ({} : Dev).counters.secondDrops = (0, 0) := by decide +kernel
theorem witness_Counts_resumed : counted.field 0x300018 16 16 ≤ counted.stagingFree ∧ counted.cellsUsed + 16384 < counted.field 0x300008 40 20 ∧
    counted.switch.refusing = some (1, 0) ∧
    (counted.setField 0x300008 40 20 16384).field 0x300008 40 20 ≤ (counted.setField 0x300008 40 20 16384).cellsUsed + 16384 := by decide +kernel
theorem test_counts : posts (run .replayHorizonShort counted) 8 7 0 [(4, 9)] ∧
    posts (run (.driveBadDma 3) counted) 2 0x0A 3 [(8, 0x100), (4, 2)] ∧
    posts (run .pepAccessSummary counted) 5 0x83 0 [(4, 0), (4, 5), (4, 0)] ∧
    posts (run (.memoryCeSummary 4) counted) 5 0xA2 4 [(4, 7)] ∧ posts (run .swcCellLost counted) 5 0x42 0 [(1, 1), (4, 2), (8, 3), (4, 4)] ∧
    posts (run (.swcInputResumed 2000000) counted) 5 0x41 0 [(8, 2), (4, 6)] := by decide +kernel
theorem test_counts_again : let d := run (.authFail 5) counted
    posts d 8 5 5 [(4, 2)] ∧ run (.authFail 5) d = d ∧ posts (run (.kexReject 3) counted) 8 6 0 [(4, 3), (4, 1)] ∧
    posts (run (.portDropSummary 3) counted) 1 5 3 [(4, 4), (4, 0), (4, 0)] ∧
    posts (run (.windowRefuseSummary 4) counted) 7 0x25 4 [(4, 1), (4, 0)] := by decide +kernel

/-- Set 0 in a state, with its members in some states. -/
def setIn (state : SetState) (a b c : MemberState) : Dev := { serving with stripes := { stored with
  sets := [(0, { mirror with state := state, layout := { mirror.layout with
    members := [(0, { bay := 0, state := a }), (1, { bay := 1, state := b }), (2, { bay := 2, state := c })] } })] } }
/-- The STATE of set 0. -/
def stateOf (d : Dev) : Option SetState := (find d.stripes.sets 0).map StripeSet.state
/-- The layout of set 0. -/
def layoutOf (d : Dev) : Layout := ((find d.stripes.sets 0).map StripeSet.layout).getD mirror.layout

theorem witness_SetStates : (layoutOf (setIn .ready .active .missing .missing)).failed = false ∧
    (layoutOf (setIn .ready .missing .missing .missing)).failed = true ∧ (layoutOf (setIn .degraded .active .active .active)).redundancy = 2 ∧
    (layoutOf (setIn .ready .active .active .missing)).redundancy = 1 ∧ (layoutOf (setIn .ready .active .missing .missing)).redundancy = 0 ∧
    mirror.layout.type.redundancy = 2 ∧ mirror.layout.minRedundancy = 1 ∧ ({ mirror.layout with type := .stripe2p } : Layout).type = .stripe2p ∧
    mirror.old = none := by decide +kernel
theorem test_set_states : stateOf ((setIn .ready .active .active .missing).judgeSet 0) = some .degraded ∧
    stateOf ((setIn .ready .active .missing .missing).judgeSet 0) = some .exposed ∧
    stateOf ((setIn .exposed .missing .missing .missing).judgeSet 0) = some .failed ∧
    stateOf ((setIn .degraded .active .active .active).judgeSet 0) = some .ready ∧
    stateOf ((setIn .failed .active .active .active).judgeSet 0) = some .failed := by decide +kernel

/-- Set 0 with a rebuilding member, losses, repaired stripes, a zone to be freed and a released namespace 2. -/
def busySet : Dev := { serving with stripes := { stored with
  releasing := [(2, { set := 0, size := 64, keyId := 3, coder := 0 })]
  sets := [(0, { mirror with
    lostThisSecond := 3, scrubRepaired := 1
    losses := [{ logical := false, cause := 1, nsid := 0, first := 0, generation := 1, count := 1, units := 1, breath := 0 }]
    zones := [(1, { state := .pendingFree, generation := 1, firstSeq := 0 })]
    layout := { mirror.layout with members := [(0, { bay := 0 }), (1, { bay := 1 }), (2, { bay := 2, state := .rebuilding })] } })] } }

theorem witness_SetWork : ((setIn .formatting .active .active .active).power.saving = none) ∧
    (layoutOf (setIn .formatting .active .active .active)).redundancy = 2 ∧
    ((find busySet.stripes.sets 0).map fun t => (t.lostThisSecond, t.state)) = some (3, .ready) ∧
    (busySet.setField 0x901048 0 1 1).field 0x901048 0 1 = 1 ∧ ((find busySet.stripes.sets 0).bind fun t => (find t.layout.members 2).map Member.state) =
      some .rebuilding ∧
    ((find busySet.stripes.sets 0).bind fun t => (find t.zones 1).map Zone.state) = some .pendingFree ∧
    ((find busySet.stripes.sets 0).any fun t => t.losses.any fun l => !l.logical) = true ∧ (find busySet.stripes.releasing 2).isSome = true ∧
    (∀ a ∈ busySet.chanters.threads, a.2.nsid ≠ 2) ∧ (∀ f ∈ busySet.front.flight, leAt f.2.entry 4 4 ≠ 2) ∧ (∀ l ∈ mirror.losses, l.logical = true) := by
  decide +kernel
theorem test_set_work : stateOf (run (.setReady 0) (setIn .formatting .active .active .active)) = some .ready ∧
    posts (run (.stripeLost 0) busySet) Cls.set 0x0A 0 [(4, 3)] ∧
    posts (run (.scrubPassDone 0) (busySet.setField 0x901048 0 1 1)) Cls.set 0x0E 0 [(8, 0), (4, 1), (4, 0)] ∧
    ((find (run (.zoneFree 0 1) busySet).stripes.sets 0).map StripeSet.zones) = some [] ∧
    ((find (run (.lossWalkDone 0 5) busySet).stripes.sets 0).map StripeSet.losses) = some [] ∧
    (run (.nsReleased 2) busySet).stripes.releasing = [] := by decide +kernel
theorem test_rebuild_done : ((find (run (.rebuildDone 0 2 5) busySet).stripes.sets 0).bind fun t => (find t.layout.members 2).map Member.state) =
    some .active := by decide +kernel

/-- Stripe 1 of zone 0. -/
def stripe (seq : Nat) (host : Bool) (life : StripeLife) (unwritten : List Nat) : Stripe :=
  { seq := seq, generation := 1, host := host, life := life, used := 64, firstAt := some 0, unwritten := unwritten }
/-- Set 0 with its stripe 1, and its unit write under CID 9 of bay 2. -/
def stripes (x : Stripe) (opened : Option Nat) (use : NvmeUse) : Dev := { serving with
  bays := [(2, { state := .qualified, commands := [(9, use)] })]
  stripes := { stored with
    nextJseq := 4
    seals := [{ seq := 1, set := 0, nsid := 1, stripe := 1, stripeSeq := 0, changes := [.append 7 16 4] }]
    records := [(7, { set := 0, kind := .stream, nsid := 1, first := 16, blocks := 4, body := zeros 32, stripe := 1, offset := 0, generation := 1 })]
    sets := [(0, { mirror with hostOpen := opened, hostZone := some 0, nextSeq := 1, stripes := [(1, x)]
                               zones := [(0, { state := .filling, generation := 1, firstSeq := 0 })] })] } }
/-- The stripe 1 of set 0. -/
def stripeOf (d : Dev) : Option Stripe := (find d.stripes.sets 0).bind fun t => find t.stripes 1
/-- A record to be placed. -/
def fresh : Record := Record.fresh 0 .mapPage 1 0 (zeros 4096)

theorem witness_Records : let d := stripes (stripe 0 true .closed [2]) none (.unitWrite 0 1 2)
    1 ≤ mirror.layout.units ∧ fresh.body.length ≤ 65808 ∧ ((d.place 0 true fresh).isSome = true) ∧ 9 ∉ (d.bay 2).quarantined ∧
    (d.bay 2).state ≠ .linkLost ∧ find (d.bay 2).commands 9 = some (.unitWrite 0 1 2) ∧ stripeOf d = some (stripe 0 true .closed [2]) ∧
    [2].erase 2 = ([] : List Nat) ∧ [1, 2].erase 2 = [1] ∧ ((find d.stripes.sets 0).bind fun t => find t.zones (1 / 1024)).isSome = true ∧
    ((find (stripes (stripe 0 true .opened []) (some 1) (.flush 0 0)).stripes.sets 0).bind StripeSet.hostOpen) = some 1 ∧
    find ((stripes (stripe 0 true .opened []) (some 1) (.flush 0 0)).bay 2).commands 9 = some (.flush 0 0) := by decide +kernel
theorem test_records : let d := stripes (stripe 0 true .closed [2]) none (.unitWrite 0 1 2)
    ((stripeOf (run (.nvmeWriteCompletion 2 9 .success 5) d)).map Stripe.life) = some .written ∧
    ((stripeOf (run (.nvmeWriteCompletion 2 9 .integrity 5) d)).map Stripe.retried) = some [2] ∧
    ((run (.nvmeFlushCompletion 2 9 .success 5) (stripes (stripe 0 true .opened []) (some 1) (.flush 0 0))).bay 2).commands = [] := by decide +kernel
theorem test_stripe_close : ((stripeOf (run (.stripeCloseMs 0 true 5) (stripes (stripe 0 true .opened []) (some 1) (.flush 0 0)))).map fun x =>
    (x.life, x.unwritten)) = some (.closed, [0, 1, 2]) := by decide +kernel

/-- Namespace 1 with a changed page. -/
def dirty : Dev := let d := stripes (stripe 0 true .committed []) none (.flush 0 0)
  { d with stripes := { d.stripes with namespaces := [(1, { set := 0, size := 4096, keyId := 3, coder := 0, dirty := [(0, 0)] })] } }

theorem witness_Records_pages : let d : Dev := { dirty with now := 5 }
    (d.place 0 false { Record.fresh 0 .mapPage 1 0 (zeros 4096) with jseq := dirty.stripes.nextJseq }).isSome = true ∧ dirty.power.saving = none ∧
    ((find dirty.stripes.namespaces 1).map fun x => (find x.dirty 0, find x.dirty 1)) = some (some 0, none) := by decide +kernel
theorem test_page_ckpt : ((find (run (.pageCkpt 1 0 5) dirty).stripes.sets 0).map fun t => t.backOpen.isSome) = some true := by decide +kernel

/-- A set without free zones whose one full zone holds nothing alive. -/
def crowded : Dev := ({ serving with stripes := { stored with
  records := [(7, { set := 0, kind := .stream, nsid := 1, first := 16, blocks := 4, body := zeros 32, stripe := 0, offset := 0, generation := 1 })]
  sets := [(0, { mirror with
  layout := { mirror.layout with stripes := 2048, zones := 2 }
  stripes := [(0, stripe 0 true .committed []), (1024, stripe 1 true .opened [])], hostOpen := some 1024, hostZone := some 1
  zones := [(0, { state := .full, generation := 1, firstSeq := 0 }), (1, { state := .filling, generation := 1, firstSeq := 1 })] })] } } : Dev).setField 0x901010 16 6 50

theorem witness_Records_collection : ((find crowded.stripes.sets 0).any fun t => decide (t.owner = crowded.slot) && t.old.isNone && crowded.collects 0 t &&
      t.zones.any fun y => decide (y.2.state = .full) && crowded.hasDead 0 y.1) = true ∧
    ((find crowded.stripes.sets 0).bind fun t => ({ crowded with now := 5 } : Dev).victim 0 { t with collecting := true }) = some 0 := by decide +kernel
theorem test_collection : ((find (run (.collection 0 5) crowded).stripes.sets 0).bind fun t => (find t.zones 0).map fun z =>
    decide (z.state = .cleaning) || decide (z.state = .pendingFree)) = some true := by decide +kernel

theorem witness_MapCommits : let d := stripes (stripe 0 true .written []) none (.flush 0 0)
    (∃ n, find d.stripes.namespaces 1 = some n) ∧ (∃ x ∈ d.stripes.seals, x.changes = [.append 7 16 4] ∧ (d.applySeal x).isSome = true) ∧
    d.mayCommit 0 1 = true ∧
    ((d.stripes.seals.filter fun y => y.set == 0 && y.stripe == 1).foldl (fun d y => d.bind fun d => d.applySeal y) (some { d with now := 5 })).isSome = true ∧
    (stripe 0 false .written []).host = false := by
  refine ⟨⟨_, rfl⟩, ⟨_, List.mem_singleton.2 rfl, by decide +kernel⟩, ?_⟩; decide +kernel
theorem test_map_commit : let d := run (.mapCommit 0 1 5) (stripes (stripe 0 true .written []) none (.flush 0 0))
    (stripeOf d).map Stripe.life = some .committed ∧ d.stripes.seals = [] ∧
    ((find d.stripes.namespaces 1).bind fun n => (find n.granules 0).map fun g => g.extents.map fun y => (y.first, y.count, y.skip, y.record)) =
      some [(16, 4, 0, 7)] := by decide +kernel

/-- Set 0 being recovered from a source. -/
def recovering (source : Nat) (life : StripeLife) : Dev := { serving with stripes := { stored with
  sets := [(0, { mirror with recovering := true, recSource := source, stripes := [(1, stripe 0 true life [])] })] } }

theorem witness_Recovery : mirror.owner = serving.slot ∧ ({ mirror with owner := 1 } : StripeSet).owner ≠ serving.slot ∧
    ((find (recovering 1 .closed).stripes.sets 0).map fun t => (t.recovering, t.recSource)) = some (true, 1) ∧
    (∀ x ∈ [(1, stripe 0 true .written [])], x.2.life ≠ .closed) := by decide +kernel
theorem test_recovery : ((find (run (.recovery 0 1 5) ((stripes (stripe 0 true .written []) none (.flush 0 0)).awaitRecovery 0)).stripes.sets 0).map fun t =>
      (t.recovering, t.recSeals, t.recSource)) = some (true, 1, 1) ∧
    ((find (run (.recoveryDone 0 5) (recovering 1 .closed)).stripes.sets 0).map StripeSet.recovering) = some false ∧
    ((find (run (.recoveryDone 0 5) (recovering 2 .closed)).stripes.sets 0).map StripeSet.recovering) = some true ∧
    posts (run (.recoveryDone 0 5) (recovering 2 .written)) Cls.set 0x37 0 [(1, 2), (4, 0), (4, 0), (8, 0)] := by decide +kernel

/-- A packet that has not landed. -/
def landing (place : LandingPlace) (ack : Option Bool) : LandingPacket :=
  { place := place, breath := 3, offset := 4, data := [7, 8], checks := [], sa := 5, msgId := 100, pktIndex := 0, ack := ack }
/-- Packets that wait to land. -/
def landings (l : List LandingPacket) : Dev := { armed with switch := { landing := l }, transport := linked.transport, front := queues.front }

theorem witness_Landing : landing (.slot 4 0) none ∈ [landing (.region 8) none, landing (.slot 4 0) none] ∧
    nextLanding (landings [landing (.region 8) none]).switch.landing = some (landing (.region 8) none) ∧
    find (landings []).memory.regions 8 = some buffer ∧ nextLanding [landing (.queue 6) (some true)] = some (landing (.queue 6) (some true)) ∧
    (find (landings []).front.sqs 6).isSome = true ∧ (∀ p ∈ [landing (.region 8) none], ∀ w k, p.place ≠ .slot w k) := by
  refine ⟨by decide, by decide +kernel, by decide +kernel, by decide +kernel, by decide +kernel, ?_⟩
  intro p hp w k; rw [List.mem_singleton.1 hp]; simp [landing]
theorem test_landing : ((find (run (.landing 1) (landings [landing (.region 8) none])).memory.regions 8).map Region.mem) = some [⟨4, 7⟩, ⟨5, 8⟩] ∧
    (run (.landing 1) (landings [landing (.region 8) none, landing (.slot 4 0) none])).switch.landing = [landing (.region 8) none] := by decide +kernel

/-- A queue whose second packet is in the spill area. -/
def spilled : EgressQueue := { point := 3, service := 2, sa := 5, packets := [{ queued with cells := 2 }, { queued with spilled := true }] }
/-- The switch with that queue. -/
def spilling : Dev := { serving with switch := { queues := [(egressKey 3 2 5, spilled)] } }

theorem witness_Spill : find spilling.switch.queues (egressKey 3 2 5) = some spilled ∧ 2 * spilled.cells < spilling.queueLimit spilled ∧
    spilling.queueLimit spilled ≤ 2 * ({ spilled with packets := [{ queued with cells := 2 ^ 20 }] } : EgressQueue).cells := by decide +kernel
theorem test_spill_return : ((find (run (.spillReturn (egressKey 3 2 5)) spilling).switch.queues (egressKey 3 2 5)).map fun q =>
    q.packets.map QueuedPacket.spilled) = some [false, false] := by decide +kernel

/-- Sampling of one queue into region 8, its ring at the last index. -/
def sampling : Dev := ((({ armed with switch := { queues := [(egressKey 3 2 5, spilled)], nodes := [(5, { sample := true })] } } : Dev).setReg
  0x400000 1).setReg 0x400008 (8 * 256 + 2)).setReg 0x40000C 127

theorem witness_Samples : sampling.field 0x400000 0 1 = 1 ∧ sampling.field 0x400000 1 2 = 0 ∧ sampling.sampledQueues = [spilled] ∧
    sampling.reg 0x400008 / 256 = 8 ∧ sampling.bufferRegion (sampling.reg 0x400008) = some (8, buffer) ∧ 32 ≤ buffer.length ∧
    (sampling.setReg 0x400008 (7 * 256)).bufferRegion (7 * 256) = none ∧ ({} : Dev).field 0x400000 0 1 = 0 := by decide +kernel
theorem test_sample : (run (.schSample 5) sampling).reg 0x40000C = 0 ∧
    ((find (run (.schSample 5) sampling).memory.regions 8).map fun r => readByte r.mem (127 * 32 + 9)) = some 2 ∧
    (run (.schSample 5) (sampling.setReg 0x400008 (7 * 256))).reg 0x400010 = 1 := by decide +kernel

/-- A tagged instruction of thread 9 whose record is due, the ring in region 8. -/
def tagged : Dev := ({ armed with counters := { tagIndex := 127, tags := [(1, { countdown := 5, generator := 1, due := some (9, 1, 0) })] } } : Dev).setReg
  0xD00034 (8 * 256 + 2)

theorem witness_Tags : ((find tagged.counters.tags (9 / 8)).bind TagUnit.due) = some (9, 1, 0) ∧
    tagged.bufferRegion (tagged.reg 0xD00034) = some (8, buffer) ∧ tagged.counters.tagWritten < 1000000 ∧
    (256 ≤ (tagged.setReg 0xD00034 (7 * 256)).reg 0xD00034 ∧ (tagged.setReg 0xD00034 (7 * 256)).bufferRegion (7 * 256) = none) ∧
    (∀ u, find ({} : Dev).counters.tags 1 = some u → u.due = none) ∧ (zeros 32).length = 32 := by decide +kernel
theorem test_tag : let d := run (.instructionTag 9 3 0xABCD 1 2 0 0 5 none) tagged
    d.counters.tagIndex = 0 ∧ ((find d.memory.regions 8).map fun r => readBytes r.mem (127 * 32) 8) = some [1, 0, 0, 0, 3, 0, 1, 1] ∧
    (run (.instructionTag 9 3 0xABCD 1 2 0 0 5 none) (tagged.setReg 0xD00034 (7 * 256))).reg 0xD0003C = 1 := by decide +kernel

/-! ## Control path and trust -/

/-- The Drone with one core fenced, its re-copy running. -/
def fencedCore : Dev := { serving with control := { coresFenced := [1], recopying := true, recopyFrom := 0, stewardsRestarting := [4] } }

theorem witness_DroneCores : (0 < 3 ∧ fencedCore.control.halted = false) ∧ ({} : Dev).control.coresFenced = [] ∧ fencedCore.control.coresFenced = [1] ∧
    fencedCore.control.recopying = true ∧ ({ serving with control := { recopyDue := true } } : Dev).control.recopyDue = true ∧
    4 ∈ fencedCore.control.stewardsRestarting ∧ 7 ∉ fencedCore.control.stewardsRestarting ∧
    ({ serving with control := { halted := true } } : Dev).control.halted = true := by decide +kernel
theorem test_drone : (run (.droneCoreFenced 2 1 5) {}).control.coresFenced = [2] ∧ (run (.droneCoreFenced 2 1 5) fencedCore).control.halted = true ∧
    posts (run (.droneRecopied 3000000) fencedCore) Cls.control 0x51 1 [(4, 3)] ∧ (run (.droneDegraded 5) fencedCore).control.degraded = true ∧
    (run (.droneRecopy 5) { control := { recopyDue := true } }).control.recopying = true ∧ (run (.droneHalted 6) fencedCore).control.halted = true := by
  decide +kernel
theorem test_stewards : posts (run (.stewardRestarted 4 1 true) fencedCore) Cls.control 0x54 4 [(1, 1)] ∧
    (run (.stewardRestarted 7 1 false) fencedCore).control.stewardsRestarting = [7, 4] ∧ (run (.stewardViolation 7 9 1) fencedCore).reg 0x1C = 1 := by
  decide +kernel

/-- Frozen for as long as CTL_START_CFG allows. -/
def frozen : Dev := ({ inFlight with control := { inFlight.control with frozen := true, frozenAt := 0 } } : Dev).setReg 0x18 1

theorem witness_ControlResets : (0xC7A5 % 65536 = 0xC7A5 ∧ inFlight.control.reset = .idle) ∧ 0xC7A4 % 65536 ≠ 0xC7A5 ∧
    (frozen.control.frozen = true ∧ frozen.field 0x18 0 16 = 1 ∧ frozen.control.frozenAt + 1 * 1000000000000 ≤ 1000000000000) ∧
    999999999999 < frozen.control.frozenAt + 1 * 1000000000000 ∧ ({ control := { reset := .restarting 0 2 } } : Dev).control.reset = .restarting 0 2 ∧
    find inFlight.control.txns 3 = some transaction ∧ transaction.beganAt + 10000000000000 ≤ 10000000000000 := by decide +kernel
theorem test_control_reset : (run (.controlReset 0 5 0xC7A5) inFlight).control.reset = .draining 0 ∧ (run (.controlReset 1 5 0xC7A5) inFlight).control.reset = .idle ∧
    posts (run (.controlReset 0 5 0) inFlight) 5 0xA0 0 [(4, 0x14), (1, 0), (8, 0)] ∧
    (run (.autoReset 1000000000000) frozen).control.reset = .draining 1 ∧
    posts (run (.controlResetDone 5) { control := { reset := .restarting 0 2 } }) 5 0x57 0 [(1, 0), (4, 2)] := by decide +kernel
theorem test_txn_expired : (run (.txnExpired 3 10000000000000) inFlight).control.txns = [] ∧ (run (.txnExpired 3 9999999999999) inFlight).control.txns.length = 1 := by
  decide +kernel

/-- A module whose attestation bank 2 may answer into region 8. -/
def attesting (bank : Bank) : Dev := { armed with trust := { banks := [(2, bank)] } }
/-- A request of the log into region 8. -/
def logRequest : Bank := { state := 1, op := 2, dest := 8 * 256 + 2 }

theorem witness_Measurements : armed.trust.log.length < 16384 ∧ (armed.field 0x40 0 1 = 0 ∧ (1 : Nat) % 2 = 1) ∧
    (armed.setReg 0x40 1).field 0x40 0 1 = 1 ∧ ((attesting logRequest).bank 2).state = 1 ∧ (armed.bank 2).state ≠ 1 ∧
    armed.trust.akPending = false ∧ ({ armed with control := { halted := true } } : Dev).control.halted = true ∧
    ({ trust := { akPending := true } } : Dev).trust.akPending = true ∧ (attesting logRequest).bufferRegion logRequest.dest = some (8, buffer) ∧
    logRequest.offset + ((attesting logRequest).attested 2 logRequest.nonce).length ≤ buffer.length ∧
    (attesting { logRequest with dest := 7 * 256 }).bufferRegion (7 * 256) = none ∧ (zeros 32).length = 32 ∧
    (∀ r < 10, (({} : Dev).measured r).length = 64) := by decide +kernel
theorem test_owner_lock : let d := run (.ownerLock 1 5 1) armed
    d.field 0x40 0 1 = 1 ∧ posts d Cls.security 0x22 1 [(1, 1), (1, 1)] ∧ (run (.ownerLock 1 5 0) d).field 0x40 0 1 = 1 ∧
    (run (.ownerLock 0 5 0) d).field 0x40 0 1 = 0 := by decide +kernel
theorem test_attest : ((run (.attestLog 2 2 5) armed).bank 2).state = 1 ∧ ((run (.attestQuote 2 2 5) (attesting logRequest)).bank 2).reason = 1 ∧
    ((run (.attestCertificates 1 2 5) armed).bank 2).state = 0 ∧ ((run (.attestDone 2) (attesting logRequest)).bank 2).state = 2 ∧
    ((run (.attestDone 2) (attesting { logRequest with dest := 7 * 256 })).bank 2).reason = 2 ∧
    (run .akCertified { trust := { akPending := true } }).trust.akPending = false := by decide +kernel

/-- A manifest of VERSION 7, SVN 3 and SVN_MIN 3. -/
def manifest : Bytes := zeros 8 ++ leBytes 4 7 ++ leBytes 4 3 ++ leBytes 4 3 ++ zeros 1004
/-- An activation that is ending. -/
def activating : Dev := { serving with trust := { stage := .activating, manifest := manifest, slotTries := 0 } }
/-- The loader at work. -/
def loading (fail : Nat) : Dev := { startUp := { phase := 2, fail := fail, slot := some 0 } }

theorem witness_Firmware : activating.trust.stage = .activating ∧ serving.trust.stage ≠ .activating ∧ ((loading 0).startUp.phase = 2 ∧ (loading 0).startUp.fail = 0) ∧
    leAt manifest 12 4 = 3 ∧ ({} : Dev).trust.svnMin ≤ 3 ∧ leAt manifest 12 4 < ({ trust := { svnMin := 4 } } : Dev).trust.svnMin ∧
    (loading 3).startUp.fail = 3 ∧ ({ serving with trust := { stage := .manifest, verified := [1, 2, 3, 4, 5, 6] } } : Dev).trust.verifiedMap = 63 ∧
    ({ trust := { slotIncomplete := true } } : Dev).trust.slotIncomplete = true := by decide +kernel
theorem test_firmware : (run (.fwActivated 5) activating).trust.running = manifest ∧ (run (.fwActivated 5) activating).trust.svnMin = 3 ∧
    (run (.fwSlotWriteDone false) activating).trust.slotTries = 3 ∧ (run (.fwSlotRetry true) { trust := { slotIncomplete := true } }).trust.slotIncomplete = false ∧
    (run (.loaderSlotCheck true manifest) (loading 0)).startUp.phase = 3 ∧ (run (.loaderSlotCheck false manifest) (loading 0)).startUp.fail = 3 ∧
    (run .loaderPlRetry (loading 3)).out = [.peer .copyRequest] ∧ (run .fwCopyRequest {}).out = [.peer (.firmware true)] := by decide +kernel
theorem test_recovery_copy : (run .recoveryCopyDone { serving with
      trust := { stage := .manifest, verified := [1, 2, 3, 4, 5, 6] }, peer := { linkUp := true, state := .standbyReady } }).trust.stage = .ready := by
  decide +kernel

/-! ## The partner -/

/-- The partner's heartbeat. -/
def beat (seq : Nat) (ready : Bool) : Heartbeat :=
  { seq := seq, slot := 1, ready := ready, updating := false, degraded := false, owned := 0, breath := 0, edgePs := 0, ckptJseq := 0, configGen := 0
    version := 7 }
/-- A paired module in a state towards its partner. -/
def paired (state : PartnerState) : Dev := { serving with
  peer := { state := state, linkUp := true, pairKey := some (zeros 32), last := some (beat 4 true), lastAt := 0, selfReady := true } }

theorem witness_PeerLink : (paired .syncing).peer.linkUp = true ∧ (paired .syncing).peer.pairKey ≠ none ∧ ({} : Dev).peer.linkUp = false ∧
    ({ serving with peer := { linkUp := true } } : Dev).peer.pairKey = none ∧ (serving.control.halted = false ∧ serving.power.saving = none ∧
      3 ≤ serving.startUp.phase) ∧ ({} : Dev).startUp.phase < 3 ∧ (beat 5 true).slot ≠ (paired .syncing).slot ∧
    (∀ l, (paired .syncing).peer.last = some l → l.seq < (beat 5 true).seq) := by
  refine ⟨by decide, by decide, by decide, by decide, by decide, by decide, by decide, ?_⟩
  intro l h; cases h; decide
theorem test_peer_link : (run (.plLinkUp 5) {}).out = [.peer .certificates] ∧ (run (.plLinkDown 5) (paired .syncing)).peer.pairKey = none ∧
    (run (.pairKeyRetry 5) { peer := { linkUp := true } }).out = [.peer .certificates] ∧
    (run (.pairKeyExchange 0 (zeros 32) 0 0 5) { serving with peer := { linkUp := true } }).peer.state = .syncing ∧
    (run (.pairKeyExchange 4 [] 0 0 5) (paired .syncing)).peer.state = .absent ∧
    (run (.pairKeyRekey [1]) (paired .syncing)).peer.pairKey = some [1] := by decide +kernel
theorem test_heartbeats : (run (.heartbeatSend 5) (paired .syncing)).peer.seq = 1 ∧ (run (.heartbeatRx (beat 5 true) true 9) (paired .syncing)).peer.lastAt = 9 ∧
    (run (.heartbeatRx (beat 4 true) true 9) (paired .syncing)).peer.lastAt = 0 ∧ (run (.aliveRelease 5) (paired .syncing)).peer.gateClosed = true ∧
    (run (.partnerLineChange true false) {}).peer.aliveIn = true := by decide +kernel

/-- The image of the partner's set 3. -/
def image : SetImage := { set := { mirror with owner := 1, identity := 9 }, spaces := [], records := [], seals := [], journal := [], nextJseq := 2, windows := [] }
/-- A partner whose heartbeats have stopped, with its lines as given; this module mirrors set 3 of it. -/
def silent (state : PartnerState) (alive owner : Bool) : Dev := let d := paired state
  { d with peer := { d.peer with aliveIn := alive, ownerIn := owner, sets := [(3, image)] } }
/-- A take-over of set 3 whose recovery has ended. -/
def takingOver : Dev := let d := paired .failed
  { d with peer := { d.peer with taking := [3], taken := [3] } }

theorem witness_PartnerFailure : (silent .standbyReady false false).peer.last = some (beat 4 true) ∧
    (silent .standbyReady false false).peer.lastAt + 5000000000 ≤ 5000000000 ∧ 4999999999 < (silent .standbyReady false false).peer.lastAt + 5000000000 ∧
    ({} : Dev).peer.last = none ∧ (silent .standbyReady true false).peer.aliveIn = true ∧ (beat 4 false).ready = false ∧
    (takingOver.peer.state = .failed ∧ (∀ n ∈ takingOver.peer.taking, n ∈ takingOver.peer.taken) ∧ takingOver.trust.stage ≠ .activating) ∧
    (silent .standbyReady false false).power.saving = none := by decide +kernel
theorem test_partner_failed : (run (.partnerFailed 5000000000) (silent .standbyReady false false)).peer.state = .failed ∧
    ((find (run (.partnerFailed 5000000000) (silent .standbyReady false false)).stripes.sets 3).map StripeSet.owner) = some 0 ∧
    (run (.partnerFailed 4999999999) (silent .standbyReady false false)).peer.state = .standbyReady ∧
    (run (.partnerFailed 5000000000) (silent .standbyReady true false)).peer.state = .absent ∧
    (run (.partnerFailed 5000000000) (silent .standbyReady false true)).peer.state = .standbyReady := by decide +kernel
theorem test_takeover_done : (run (.takeoverDone 2000000) takingOver).peer.lastGapUs = 2 ∧
    posts (run (.takeoverDone 2000000) takingOver) Cls.control 0x72 0 [(4, 8), (4, 2), (4, 0), (4, 0)] := by decide +kernel

/-- A journalled message of the partner. -/
def response : SentResponse := { sa := 5, msgId := 100, cq := 7, entries := [done], firstSent := 0 }
/-- Set 3 on its way here, or here and recovered. -/
def handing (done : Bool) (taken : List Nat) : Dev := let d := silent .standbyReady true true
  { d with peer := { d.peer with handbacks := [(3, { edge := 4, incoming := true, requestedAt := 0, handedOver := done })], taken := taken } }
/-- A module that serves the partner's forwarded commands. -/
def owner : Dev := let d := paired .standbyReady
  { d with stripes := stored, front := { sqs := [(40000, { place := .peer, entries := 1, cq := 40000 })]
                                         flight := [(3, { flying 1 0 0 .forwarded with sq := 6 })] } }
/-- Ports 3, 256 and 257 up, shelf 0 by port 256 or else 257. -/
def ring (up : Bool) : Dev := ({ serving with transport := { ports := [(256, { up := up }), (257, { up := true })] } } : Dev).setReg 0x600 0b10100
/-- A packet on a loop port for an IPv4 address. -/
def passing (dst : Nat) : Frame := {
  port := 257, fcsOk := true, now := 7
  bytes := zeros 12 ++ beBytes 2 0x0800 ++ ([0x45, 0] ++ beBytes 2 92 ++ zeros 4 ++ [64, 17, 0, 0] ++ beBytes 4 0x0A000002 ++ beBytes 4 dst) ++
    (beBytes 2 50000 ++ beBytes 2 (({} : Dev).field 0x200000 0 16) ++ beBytes 2 72 ++ [0, 0] ++ (header 5 100 0).bytes ++ zeros 32) }

theorem witness_Mirrors : serving.power.saving = none ∧ (image.set.owner ≠ (paired .syncing).slot ∧ find (paired .syncing).stripes.sets 3 = none) ∧
    (paired .syncing).peer.state = .syncing ∧ (paired .syncing).serving = true ∧
    (paired .syncing).peer.resyncFrom + 60000000000000 ≤ 60000000000000 ∧ (paired .absent).peer.state ≠ .syncing ∧
    (owner.peer.linkUp = true ∧ (ioEntry 1 0 1 0 4).length = 64 ∧ leAt (ioEntry 1 0 1 0 4) 4 4 = 1 ∧ (find owner.stripes.namespaces 1).isSome = true ∧
      (find owner.front.sqs 40000).isSome = true) ∧
    ((find owner.front.flight 3).map InFlight.stage) = some .forwarded ∧ owner.peer.handbacks = [] := by decide +kernel
theorem witness_Mirrors_hand : (find (handing false []).peer.handbacks 3).isSome = true ∧ find (handing false []).peer.sets 3 = some image ∧
    2 ≤ image.nextJseq ∧ (find (handing true [3]).peer.handbacks 3).map Handback.handedOver = some true ∧ 3 ∈ (handing true [3]).peer.taken ∧
    (let d := { paired .standbyReady with stripes := stored }; d.standbyReady = true ∧ bitOf 1 0 = true ∧ d.ownsSet 0 = true ∧ find d.peer.handbacks 0 = none) := by
  decide +kernel
theorem test_mirrors : (run (.mirrorAppendRx (.response response)) {}).peer.theirs = [response] ∧
    (run (.mirrorAppendRx (.responded 5 100)) { peer := { theirs := [response] } }).peer.theirs = [] ∧
    ((run (.mirrorAppendRx (.set 3 image)) (paired .syncing)).peer.sets.map Prod.fst) = [3] ∧ (run (.standbyCopyRx { gen := 4 }) {}).peer.installed.gen = 4 := by
  decide +kernel
theorem test_resync : (run (.resync 5) (paired .syncing)).peer.resyncFrom = 5 ∧ (run (.resyncRetry 60000000000000) (paired .syncing)).peer.resyncTries = 1 ∧
    (run (.resyncRetry 59999999999999) (paired .syncing)).peer.resyncTries = 0 ∧ (run (.partnerStandbyReady 5) (paired .syncing)).peer.state = .standbyReady := by
  decide +kernel
theorem test_forwarded : ((find (run (.forwardedCommand 8 (ioEntry 1 0 1 0 4) [] 5) owner).front.flight 0).map fun f => (f.stage, f.origin)) =
      some (.waiting, some 8) ∧
    (find (run (.forwardedCompletion 3 0 0 0 [] [] [] 5) owner).front.flight 3).isNone = true := by decide +kernel
theorem test_handover : ((find (run (.handover 3 2 5) (handing false [])).stripes.sets 3).map StripeSet.owner) = some 0 ∧
    (run (.handbackDone 3 2000000) (handing true [3])).peer.handbacks = [] ∧
    posts (run (.handbackDone 3 2000000) (handing true [3])) Cls.control 0x74 3 [(1, 0), (4, 2)] := by decide +kernel
theorem test_handback : let d := run (.handback 0 5 1) { paired .standbyReady with stripes := stored }
    (d.peer.handbacks.isEmpty && !d.regs.landing.isEmpty) = true := by decide +kernel

/-- Some address below 261 is none of the module's 260. -/
theorem witness_Loop_address : ∃ n < 261, ∀ k < 260, n ≠ Config.portAddress4 k := by
  have h : ((Finset.range 260).image Config.portAddress4).card < (Finset.range 261).card :=
    lt_of_le_of_lt Finset.card_image_le (by simp)
  obtain ⟨n, hn, hx⟩ := Finset.exists_mem_notMem_of_card_lt_card h
  refine ⟨n, Finset.mem_range.1 hn, fun k hk e => hx (Finset.mem_image.2 ⟨k, Finset.mem_range.2 hk, e.symm⟩)⟩
/-- What the module sees of such a frame, whatever its address. -/
theorem witness_Loop_frame : (List.range 261).all (fun n =>
    (match ipOf (etherOf (passing n).bytes) with
      | some p => p.v4 && p.dst == mapped n
      | none => false) &&
    (match ((ring true).clock 7).classify (passing n) with
      | .cuchail _ => true
      | _ => false)) = true := by decide +kernel
theorem witness_Loop : ∃ n < 261, passesOn (passing n).port (passing n).bytes = true := by
  obtain ⟨n, hn, hx⟩ := witness_Loop_address
  refine ⟨n, hn, ?_⟩
  have h := List.all_eq_true.1 witness_Loop_frame n (List.mem_range.2 hn)
  unfold passesOn
  cases e : ipOf (etherOf (passing n).bytes) with
  | none => simp [e] at h
  | some p =>
    simp only [e, Bool.and_eq_true, beq_iff_eq] at h
    simp only [h.1.1, h.1.2, if_true, Bool.and_eq_true, decide_eq_true_eq, Bool.not_eq_true', List.any_eq_false, List.mem_range, beq_iff_eq]
    refine ⟨(by decide : 257 ≥ 256), fun k hk e => hx k hk ?_⟩
    have hm := (Config.portIp4 k).isLt
    simp only [mapped, Config.portAddress4] at e ⊢
    omega
theorem witness_Loop_ports : let d := (ring true).clock 7
    256 ≤ (passing 0).port ∧ d.takesFrames 257 = true ∧ (ring true).routeOf 0 = some 256 ∧ (ring false).routeOf 0 = some 257 ∧ serving.routeOf 0 = none ∧
    ((d.total (hpcPort 257 0x28) 32 1).policePort 257 ((passing 0).bytes.length + 4)).2 = true := by decide +kernel

/-! ## Drives and power -/

/-- A drive. -/
def drive : Drive := { capacity := 2 ^ 42, plp := true }
/-- What qualification finds. -/
def report (failed : Nat) : DriveReport := { failed := failed, empty := true, speed := 3, width := 4, queues := 16, drive := drive }
/-- Bay 3 in some condition. -/
def inBay (b : Bay) : Dev := { serving with bays := [(3, b)], stripes := stored }
/-- A QUALIFIED bay with one command outstanding. -/
def working (u : NvmeUse) : Bay := { state := .qualified, drive := some drive, commands := [(9, u)], nextCid := 10 }
/-- A health log. -/
def health (warning temp : Nat) : SmartLog :=
  { critWarning := warning, pctUsed := 1, availSpare := 90, tempK := temp, unitsWritten := 5, mediaErrors := 0 }
/-- Auto-prepare on. -/
def preparing (b : Bay) : Dev := (inBay b).setField 0xA00000 62 1 1
/-- The state of bay 3. -/
def bayState (d : Dev) : BayState := (d.bay 3).state

theorem witness_Drives : ((inBay { state := .qualifying }).bay 3).state = .qualifying ∧ (serving.bay 3).state ≠ .qualifying ∧
    ((report 0).failed = 0 ∧ (report 11).failed = 11 ∧ (report 7).failed ≠ 0 ∧ (report 7).failed ≠ 11) ∧
    ({ report 11 with empty := false } : DriveReport).empty = false ∧ (preparing {}).field 0xA00000 62 1 = 1 ∧ serving.field 0xA00000 62 1 = 0 ∧
    (serving.slot = 0 ∨ serving.peer.state = .absent) ∧
    ¬(({ paired .syncing with startUp := { phase := 6, slot := some 1 } } : Dev).slot = 0 ∨
      ({ paired .syncing with startUp := { phase := 6, slot := some 1 } } : Dev).peer.state = .absent) ∧
    ((inBay { state := .qualifying, identifyTries := 30, drive := some drive }).bay 3).drive = some drive ∧
    find ({ state := .qualifying, commands := [(9, .admin 6)] } : Bay).commands 9 = some (.admin 6) := by decide +kernel
theorem witness_Drives_health : (working (.admin 2)).state = .qualified ∧ find (working (.admin 2)).commands 9 = some (.admin 2) ∧
    9 ∉ (working (.admin 2)).quarantined ∧ (200 ≤ (health 0 200).tempK ∧ (health 0 400).tempK ≤ 400 ∧ (health 0 200).critWarning % 32 = 0) ∧
    (health 0 200).pctUsed < serving.field 0xA00008 0 8 ∧ (health 8 300).critWarning = 8 ∧ (working (.admin 2)).conditions = 0 ∧
    (health 0 199).tempK < 200 ∧ 400 < (health 0 401).tempK ∧ (working (.admin 2)).failedPolls < 2 ∧
    ({ state := .qualified } : Bay).commands = [] := by decide +kernel
theorem test_qualify : bayState (run (.driveQualify 3 (report 0) 5) (inBay { state := .qualifying })) = .qualified ∧
    ((run (.driveQualify 3 (report 0) 5) (inBay { state := .qualifying })).bay 3).queues = 8 ∧
    bayState (run (.driveQualify 3 (report 7) 5) (inBay { state := .qualifying })) = .rejected ∧
    ((run (.linkTrainTimeout 3) (inBay { state := .qualifying })).bay 3).reason = 1 ∧ ((run (.cstsReadyTimeout 3) (inBay { state := .qualifying })).bay 3).reason = 2 ∧
    bayState (run (.identifyRetry 3 true 5) (inBay { state := .qualifying, identifyTries := 1, drive := some drive })) = .qualified ∧
    bayState (run (.identifyRetry 3 false 5) (inBay { state := .qualifying, identifyTries := 30, drive := some drive })) = .rejected ∧
    bayState (run .autoPrepare (preparing { state := .rejected, reason := 11, drive := some drive })) = .qualified := by decide +kernel
theorem test_health : (run (.healthPoll 3) (inBay { state := .qualified })).out.length = 1 ∧
    bayState (run (.nvmeAdminCompletion 3 9 (some (health 8 300)) 5) (inBay (working (.admin 2)))) = .faulted ∧
    (((run (.nvmeAdminCompletion 3 9 (some (health 0 300)) 5) (inBay (working (.admin 2)))).bay 3).drive.map Drive.tempK) = some 300 ∧
    ((run (.nvmeAdminCompletion 3 9 none 5) (inBay (working (.admin 2)))).bay 3).failedPolls = 1 ∧
    bayState (run (.adminTimeout 3 9 5) (inBay { working (.admin 2) with failedPolls := 2 })) = .faulted := by decide +kernel

/-- Bay 2, a member of set 0, with a scrub read under CID 9. -/
def member : Dev := stripes (stripe 0 true .written []) none (.scrubRead 0 1)

theorem witness_DriveFailures : find (working (.recordRead 7)).commands 9 = some (.recordRead 7) ∧ find (working (.recordRead 7)).commands 8 = none ∧
    NvmeUse.isRead (.recordRead 7) = true ∧ NvmeUse.isRead (.ledgerWrite 0) = false ∧ NvmeUse.isAdmin (.ledgerWrite 0) = false ∧ NvmeUse.isAdmin (.admin 2) = true ∧ 9 ∈ ({ state := .qualified, quarantined := [9] } : Bay).quarantined ∧
    (member.memberOf 2 = some (0, 2) ∧ (find member.stripes.sets 0).isSome = true ∧ (find mirror.layout.members 2).map Member.bay = some 2 ∧
      (find mirror.layout.members 2).map Member.lost = some false ∧ (0 : Nat) < 0 + 3600000000000000) ∧
    ((inBay { state := .linkLost }).bay 3).state = .linkLost ∧ (∃ r ∈ [(0x1000, 0x100)], r.1 ≤ 0x1000 ∧ 0x1000 + 0x100 ≤ r.1 + r.2) ∧
    ¬(∃ r ∈ [(0x1000, 0x100)], r.1 ≤ 0x1000 ∧ 0x1000 + 0x101 ≤ r.1 + r.2) := by decide +kernel
theorem witness_DriveFailures_repairs : let d := member.setField 0x901030 24 8 2
    ((find mirror.layout.members 2).map Member.repairs) = some 0 ∧ 0 + 1 < d.field (setAt 0 0x30) 24 8 := by decide +kernel
theorem test_drive_timeouts : ((run (.readTimeout 3 9 5) (inBay (working (.recordRead 7)))).bay 3).quarantined = [9] ∧
    bayState (run (.writeTimeout 3 9 5) (inBay (working (.ledgerWrite 0)))) = .faulted ∧
    ((run (.nvmeReadCompletion 3 9 true 5) (inBay { state := .qualified, quarantined := [9] })).bay 3).lateCpl = 1 ∧
    ((run (.nvmeReadCompletion 2 9 false 5) member).stripes.sets.map fun t => t.2.scrubQueue) = [[1]] ∧
    ((run (.cidQuarantineEnd 3 9) (inBay { state := .qualified, quarantined := [9] })).bay 3).quarantined = [] ∧
    bayState (run (.controllerFatal 3 5) (inBay { state := .qualified })) = .faulted := by decide +kernel
theorem test_drive_links : bayState (run (.driveLinkDown 3 5) (inBay { state := .qualified })) = .linkLost ∧
    bayState (run (.driveLinkUp 3 5) (inBay { state := .linkLost })) = .qualified ∧ bayState (run (.linkDownExpiry 3 5) (inBay { state := .linkLost })) = .faulted ∧
    (run (.driveDmaRequest 3 0x1000 0x100 none) (inBay { issued := [(0x1000, 0x100)] })).out = [.dma 3 0x1000 0x100] ∧
    ((run (.driveDmaRequest 3 0x1000 0x101 none) (inBay { issued := [(0x1000, 0x100)] })).bay 3).badDma = 1 := by decide +kernel

/-- The inlet in a state, the module seated with the supply in its window. -/
def inlet (x : InletState) : Dev := { serving with power := { inlet := x, seated := true, inWindow := true } }
/-- Bay 3's channel, the inlet ON. -/
def channelIn (c : BayChannel) : Dev := { serving with power := { inlet := .on, seated := true, inWindow := true, bays := [(3, c)] } }

theorem witness_Inlet : serving.power.seated = false ∧ (inlet .on).power.seated = true ∧ (serving.startUp.fail ≠ 1 ∧ serving.startUp.fail ≠ 2) ∧
    (inlet .wait).power.inlet ≠ .on ∧ ((inlet .on).power.inlet = .on ∧ (inlet .on).power.saving = none) ∧ (inlet .ramp).power.inlet = .ramp ∧
    (inlet .retry).power.inlet = .retry ∧ (inlet .fault).power.inlet = .fault ∧ (29000 < 29001 ∧ (inlet .on).power.budget = false) ∧
    ({ power := { budget := true } } : Dev).power.budget = true := by decide
theorem test_inlet : (run (.moduleSeated 5) { serving with power := { inWindow := true } }).power.inlet = .delay ∧
    (run .inletDelayExpiry (inlet .delay)).power.inlet = .ramp ∧ (run (.inletOn 54000 900 5) (inlet .ramp)).power.inlet = .on ∧
    (run (.inletFault 2 5) (inlet .on)).power.cause = 2 ∧ (run .inletRampTimeout (inlet .ramp)).power.cause = 4 ∧
    (run .inletRetry (inlet .retry)).power.tries = 1 ∧ (run (.inletFaultClear 0) (inlet .fault)).power.inlet = .delay ∧
    (run (.inletWindow false 5) (inlet .delay)).power.inlet = .wait ∧ (run (.moduleExtraction 5) (inlet .on)).power.saving = some 5 := by decide +kernel
theorem test_budget : (run (.powerBudget 29001) (inlet .on)).power.budget = true ∧ (run (.powerBudget 29000) (inlet .on)).power.budget = false ∧
    (run .powerBudgetRelease { power := { budget := true } }).power.budget = false := by decide +kernel

theorem witness_BayPower : (channelIn { present := true }).power.inlet = .on ∧ ((channelIn { present := true }).channel 3).present = true ∧
    (serving.channel 3).present = false ∧ ((channelIn { present := true, state := .delay }).channel 3).state = .delay ∧
    ((channelIn {}).power.budget = false ∧ (channelIn {}).ramps < 4) ∧
    (∀ x ∈ (channelIn { present := true, state := .delay }).power.bays, x.1 = 3 ∨ x.2.held = false) ∧
    ({ present := true, state := .on } : BayChannel).fed = true ∧ ({ present := true, state := .fault } : BayChannel).fed = false ∧
    (channelIn { present := true, state := .on }).bayCtlOk 3 0 = true ∧
    ({ member with bays := [(2, { state := .qualified })] } : Dev).bayCtlOk 2 0 = false ∧ ((channelIn { state := .fault, present := true }).channel 3).present = true := by
  decide +kernel
theorem test_bay_power : ((run (.bayInserted 3) (channelIn {})).channel 3).present = true ∧ ((run (.bayRemoved 3 5) (channelIn { present := true })).channel 3) = {} ∧
    ((run (.bayDelayExpiry 3 false) (channelIn { present := true, state := .delay })).channel 3).state = .ramp ∧
    ((run (.bayDelayExpiry 3 true) (channelIn { present := true, state := .delay })).channel 3).state = .on ∧
    ((run (.bayPowered 3 900) (channelIn { present := true, state := .ramp })).channel 3).state = .on ∧
    bayState (run (.bayPowered 3 900) (channelIn { present := true, state := .ramp })) = .qualifying := by decide +kernel
theorem test_bay_faults : ((run (.auxDelayExpiry 3) (channelIn { present := true, state := .on })).channel 3).aux = true ∧
    ((run (.bayFault 3 2 9000 5) (channelIn { present := true, state := .on })).channel 3).cause = 2 ∧
    ((run (.bayRampTimeout 3 5) (channelIn { present := true, state := .ramp })).channel 3).cause = 4 ∧
    ((run (.bayRetry 3) (channelIn { present := true, state := .retry })).channel 3).tries = 1 ∧
    ((run (.bayFaultClear 0 3) (channelIn { present := true, state := .fault, tries := 3 })).channel 3).tries = 0 ∧
    ((run (.bayEnable 0 3 0 5) (channelIn { present := true, state := .on })).channel 3).state = .off := by decide +kernel

/-- The inlet lost with the bank charged. -/
def failingPower : Dev := let d := inlet .on
  { d with power := { d.power with failing := some 0, full := true } }

theorem witness_HoldUp : failingPower.power.failing = some 0 ∧ (inlet .on).power.failing = none ∧ failingPower.power.saving = none ∧
    failingPower.power.nextSlot = false ∧ ({ dumpA := some { complete := true, breath := 1, jseq := 0, owned := 0 } } : Power).nextSlot = true ∧
    (300 ≤ 580 * (38000 * 38000 - 400000000) / 2000000000 ∧ 580 * (37000 * 37000 - 400000000) / 2000000000 < 300) ∧ 49500 ≤ 49500 ∧ 48499 < 48500 ∧
    (let m := 1000000 / 2500; m ≠ 0 ∧ m * (49500 * 49500 - 400000000) / 2000000000 < 450) ∧ (inlet .on).power.thermal = false ∧
    ({ power := { thermal := true } } : Dev).power.thermal = true := by decide +kernel
theorem witness_HoldUp_cooling : 17 ∉ serving.power.stale ∧ 5 ∉ serving.power.fansFailed ∧ 30 ≤ serving.power.dutyOut 5 ∧
    999 < (serving.setField 0xB00030 32 16 1000).field 0xB00030 32 16 ∧ 5 ∈ ({ fansFailed := [5] } : Power).fansFailed ∧ (-40 : Int) ≤ -40 ∧ (150 : Int) ≤ 150 ∧
    (serving.setField 0xB00030 32 16 1000).field 0xB00030 32 16 = 1000 := by decide +kernel
theorem test_power_fail : (run (.powerFail 38000 5) (inlet .on)).power.failing = some 5 ∧ (run (.powerRestored 9) failingPower).power.failing = none ∧
    (run (.saveStart 5) failingPower).power.saving = some 5 ∧ (run (.thermalShutdown 5) (inlet .on)).power.saveCause = 1 ∧
    (run (.holdupCharged 38000) (inlet .on)).power.armed = true ∧ (run (.holdupCharged 37000) (inlet .on)).power.armed = false ∧
    (run (.holdupFullCharge 49500) (inlet .on)).power.full = true ∧ (run (.holdupRecharge 48499) failingPower).power.full = false ∧
    (run (.holdupTest 2500 49500) failingPower).power.wornPosted = true := by decide +kernel
theorem test_cooling : (run (.sensorFault 17) serving).power.stale = [17] ∧ (run (.temperatureStale 1) serving).power.duty = 100 ∧
    find (run (.temperatureSample 1 (-40)) serving).power.temps 1 = some [-40] ∧ (run (.temperatureSample 1 151) serving).power.temps = [] ∧
    (run (.fanFault 5 999) (serving.setField 0xB00030 32 16 1000)).power.fansFailed = [5] ∧
    (run (.fanRestored 5 1000) ((serving.setField 0xB00030 32 16 1000).onPower fun p => { p with fansFailed := [5] })).power.fansFailed = [] := by
  decide +kernel

/-! ## The endpoint -/

/-- BAR2 window 1, active and staged, of 4 KiB at 0x1000 over region 8. -/
def mappedBar : Dev := (((((armed.setReg 0xC02020 (0x1000 + 12 * 16 + 7)).setReg 0xC02028 (8 * 256 + 2)).setReg 0xC01020 (0x1000 + 12 * 16 + 7)).setReg
  0xC01028 (8 * 256 + 2)).setField 0xC00004 8 1 1)
/-- A read at a BAR2 address. -/
def barRead (addr : Nat) : Bar2Request := { addr := addr, len := 4, write := none, tag := 1 }

theorem witness_Bar2 : (mappedBar.barTarget (barRead 0x1FFC)).map Prod.fst = some 8 ∧ mappedBar.barTarget (barRead 0x1FFD) = none ∧
    (mappedBar.barTarget { barRead 0x1000 with write := some [1, 2, 3, 4] }).map Prod.fst = some 8 ∧ mappedBar.barHeld (barRead 0x1000) = false ∧
    mappedBar.holdFull (barRead 0x1000) = false ∧ (mappedBar.setReg 0xC00018 2).barHeld (barRead 0x1000) = true ∧ mappedBar.commitError 2 1 = 0 ∧
    mappedBar.commitError 1 0 ≠ 0 ∧ (∀ w < 64, bitOf 2 w = true → mappedBar.commitError 2 w = 0) ∧ mappedBar.endpoint.heldRequests = [] ∧
    mappedBar.barHit 0x1000 = some 1 := by decide +kernel
theorem test_bar2 : (run (.bar2Tlp (barRead 0x1FFC)) mappedBar).out = [.answer 1 (some [0, 0, 0, 0])] ∧
    (run (.bar2Tlp (barRead 0x1FFD)) mappedBar).out = [.answer 1 none] ∧
    ((find (run (.bar2Tlp { barRead 0x1004 with write := some [9, 0, 0, 0] }) mappedBar).memory.regions 8).map Region.mem) = some [⟨4, 9⟩] ∧
    (run (.bar2Tlp (barRead 0x1000)) (mappedBar.setReg 0xC00018 2)).endpoint.heldRequests = [barRead 0x1000] := by decide +kernel
theorem test_windows : (run (.pepWinCommit 0 2) mappedBar).field 0xC00020 0 1 = 0 ∧ (run (.pepWinCommit 0 1) mappedBar).field 0xC00020 0 1 = 1 ∧
    (run (.pepWinHold 0 2) mappedBar).reg 0xC00018 = 2 ∧ (run (.pepWinHoldExpired 1) (mappedBar.setReg 0xC00018 2)).reg 0xC00018 = 0 := by decide +kernel

/-- Vector 3 unmasked with a message due. -/
def interrupting (gap : Bool) : Dev := ({ mappedBar with endpoint := {
  unmasked := [3], gapRunning := if gap then [3] else [], gapDue := if gap then [3] else [], pendingVectors := if gap then [] else [4] } } : Dev).setField 0xC00004 8 1 1

theorem witness_Endpoint : (3 ∈ (interrupting true).endpoint.unmasked ∧ (interrupting true).endpoint.functionMasked = false ∧ (interrupting true).busMaster = true) ∧
    3 ∈ (interrupting true).endpoint.gapRunning ∧ 3 ∈ (interrupting true).endpoint.gapDue ∧ 3 ∉ (interrupting false).endpoint.gapRunning ∧
    (4 ∈ (interrupting false).endpoint.pendingVectors ∧ 4 ∉ (interrupting false).endpoint.unmasked) ∧ (2047 < 2048 ∧ 2048 ≤ 2048) ∧ (7 < 8 ∧ 31 < 32) ∧ 3 < 4 ∧
    (interrupting false).endpoint.waitingReads = [] ∧ serving.front.cqs = [] ∧
    ((find queues.front.sqs 8).map fun q => q.place) = some .host ∧ ((find queues.front.sqs 6).map fun q => (q.place, q.fenced)) = some (.bell, false) := by
  decide +kernel
theorem test_interrupts : (run (.irqGapExpiry 3) (interrupting true)).out = [.interrupt 3] ∧ (run (.msixUnmask (some 4)) (interrupting false)).out = [.interrupt 4] ∧
    (run (.msixUnmask (some 2048)) (interrupting false)).endpoint.unmasked = [3] := by decide +kernel
theorem test_endpoint : (run (.endpointLinkUp 3 4) serving).field 0xC00004 0 3 = 3 ∧ (run (.busMasterDisable true) mappedBar).field 0xC00004 9 1 = 1 ∧
    (run .busMasterEnable serving).busMaster = true ∧ ((run (.endpointReset 2 5) queues).front.sqs.map fun q => (q.1, q.2.fenced)) = [(6, false), (8, true)] := by
  decide +kernel

/-! ## Events, counters, memory errors and start-up -/

/-- An event record. -/
def event : EventRecord := { cls := 5, code := 0x54, unit := 4, breath := 0, data := [(1, 1)] }
/-- Client 0's ring of four entries with its tail at the last, and one event to deliver. -/
def ringed : Dev := ((({ mappedBar with events := [(0, { posted := 1, history := [event] })] } : Dev).setReg 0x308 (4 + 2 ^ 16)).setReg 0x30C 3).setReg 0x310 1
/-- Client 1 on SA 5 with one event to deliver. -/
def listening : Dev := ({ linked with events := [(1, { posted := 1, history := [event] })] } : Dev).setReg 0x2500 5

theorem witness_Events : (2 ≤ ringed.field 0x308 0 16 ∧ ringed.reg 0x30C < ringed.field 0x308 0 16 ∧
      (ringed.reg 0x30C + 1) % ringed.field 0x308 0 16 ≠ ringed.reg 0x310 ∧ bitOf (ringed.reg 0x308) 16 = true ∧ bitOf (ringed.reg 0x308) 17 = false ∧
      ringed.busMaster = true ∧ (ringed.client 0).history = [event] ∧ (ringed.client 0).posted = (ringed.client 0).delivered + 1) ∧
    serving.hears 0 5 = true ∧ (serving.client 0).history.length < 4096 ∧ bitOf (serving.reg 0x308) 16 = false ∧ serving.clientSa 1 = none ∧
    ({ mgmt := { queue := [event] } } : Dev).mgmt.queue ≠ [] ∧ (oneOfHundred 1000 5 (0, 0)).isSome = true ∧ serving.mgmt.link = false ∧
    (({ serving with mgmt := { link := true } } : Dev).setField 0x500 0 1 1).mgmtAccepts (zeros 20) false = false := by decide +kernel
theorem test_delivery : (run (.eventDelivery 0 5) ringed).reg 0x30C = 0 ∧ (run (.eventDelivery 0 5) ringed).out.length = 1 ∧
    (run (.evq0Enable 0) serving).field 0x308 16 1 = 1 ∧ (run (.ctlEvq0HeadWrite 0 3) serving).reg 0x310 = 3 := by decide +kernel
theorem test_management : (run .mgmtLinkUp {}).mgmt.link = true ∧ (run .mgmtLinkDown (run .mgmtLinkUp {})).mgmt.link = false ∧
    (run (.eventMirror 5) { mgmt := { queue := [event] } }).reg 0x504 = 1 ∧
    (run (.mgmtFrameRx (zeros 20) false 5) (({ serving with mgmt := { link := true } } : Dev).setField 0x500 0 1 1)).reg 0x504 = 1 := by decide +kernel

/-- A counter at its last value. -/
def wrapping : Dev := serving.setReg (0xD00108 + 16 * 95) (2 ^ 48 - 1)
/-- Snapshots at every breath into region 8. -/
def snapping : Dev := (armed.setField 0xD00000 16 16 5).setReg 0xD00010 (8 * 256 + 2)

theorem witness_Counters : serving.counters.frozen = false ∧ wrapping.field (0xD00108 + 16 * 95) 0 48 + 1 = 2 ^ 48 ∧
    wrapping.field (0xD00108 + 16 * 95) 0 48 + 0 < 2 ^ 48 ∧ wrapping.field 0xD00048 31 1 = 0 ∧
    (snapping.field 0xD00000 16 16 ≠ 0 ∧ snapping.breath % 5 = 0 ∧ snapping.bufferRegion (snapping.reg 0xD00010) = some (8, buffer) ∧
      832 ≤ buffer.length ∧ snapping.counters.snapWritten < 100000) ∧
    ((snapping.setReg 0xD00010 (7 * 256)).bufferRegion (7 * 256) = none ∧ 256 ≤ 7 * 256) ∧
    ({ counters := { freezeArm := some 0 } } : Dev).counters.freezeArm = some 0 ∧ 0 + 2000000 ≤ 2000000 ∧ 1999999 < 0 + 2000000 := by decide +kernel
theorem test_counters : (run (.cntFreeze 0) serving).counters.frozen = true ∧ (run (.cntResume 0) (run (.cntFreeze 0) serving)).counters.frozen = false ∧
    (run (.freezeEdge 0 7) serving).counters.freezeArm = some 7 ∧ (run (.resumeEdge 0 7) serving).counters.resumeArm = some 7 ∧
    (run (.clearAll 0) wrapping).reg (0xD00108 + 16 * 95) = 0 ∧ (run (.cntValWrite 0 95 (2 ^ 48 + 1)) serving).reg (0xD00108 + 16 * 95) = 1 ∧
    (run (.cntOverflow 95 1) wrapping).reg (0xD00108 + 16 * 95) = 0 ∧ posts (run (.cntOverflow 95 1) wrapping) Cls.control 0x90 95 [(8, 0)] := by
  decide +kernel

theorem witness_Memory : (7 < 8 ∧ 47 < 48 ∧ 31 < 32 ∧ 95 < 96) ∧ 47 ∉ serving.chanters.fenced ∧ (∀ t ∈ serving.chanters.threads, t.1 / 8 ≠ 47) ∧
    31 ∉ serving.compression.fenced ∧ 95 ∉ serving.cipher.fenced ∧ serving.chanters.threads = [] ∧ serving.control.halted = false ∧
    find armed.memory.regions 8 = some buffer ∧ ((7 : Nat) = 7 ∧ (1 : Nat) < 2) := by decide +kernel
theorem test_memory : 7 ∈ (run (.memoryUe 1 7 0 [] 5) serving).switch.slicesFenced ∧ (run (.memoryUe 2 47 0 [] 5) serving).chanters.fenced = [47] ∧
    (run (.memoryUe 3 31 0 [] 5) serving).compression.fenced = [31] ∧ (run (.memoryUe 4 95 0 [] 5) serving).cipher.fenced = [95] ∧
    (run (.memoryUe 7 0 5 [] 5) linked).transport.saCache = [] ∧ (run (.memoryUe 12 0 0 [] 5) serving).reg 0x320 = 1 ∧
    (run (.eccScrub 4 3) serving).reg 0x31C = 3 := by decide +kernel

/-- A save that is under way, its slot A. -/
def saving : Dev := let d := failingPower
  { d with power := { d.power with saving := some 5, dumpA := some { complete := false, breath := 0, jseq := 0, owned := 0 } } }
/-- A module in a phase, the inlet ON. -/
def starting (phase : Nat) : Dev := { inlet .on with startUp := { phase := phase } }
/-- A module that claims set 0 or nothing in phase 4, its partner heard. -/
def claiming (claimed : List Nat) : Dev := { paired .syncing with startUp := { phase := 4, slot := some 0, claimed := claimed }, stripes := { sets := [(0, mirror)] } }

theorem witness_StartUp : saving.power.saving = some 5 ∧ serving.power.saving = none ∧ ({ power := { thermal := true } } : Dev).power.thermal = true ∧
    ((starting 0).power.inlet = .on ∧ (starting 0).startUp.fail = 0 ∧ (starting 0).power.thermal = false) ∧ (starting 1).startUp.phase = 1 ∧
    serving.startUp.slot = some 0 ∧ (starting 0).startUp.slot = none ∧ ((starting 3).startUp.phase = 3 ∧ (starting 3).front.sqs = [] ∧ (starting 3).front.cqs = []) ∧
    (starting 3).power.bestDump = none ∧ ({ dumpA := some { complete := true, breath := 4, jseq := 0, owned := 1 } } : Power).bestDump.isSome = true ∧
    ((claiming [0]).peer.linkUp = true ∧ (claiming [0]).peer.pairKey ≠ none ∧ 1 ≠ (claiming [0]).slot ∧ (claiming [0]).startUp.settled = false ∧
      (claiming [0]).peer.sets = []) ∧ (claiming []).startUp.claimed = [] ∧ serving.peer.linkUp = false ∧ (inlet .wait).power.inlet ≠ .on := by decide +kernel
theorem test_save_ends : (run (.saveComplete 9 8) saving).power.lastSave = 1 ∧ (run (.saveComplete 9 8) saving).startUp.phase = 0 ∧
    (run (.holdupExhausted 9 8) saving).power.lastSave = 2 ∧ ((run (.saveComplete 9 8) saving).power.dumpA.map DumpSlot.complete) = some true ∧
    (run .thermalRestart { power := { thermal := true, seated := true, inWindow := true } }).power.inlet = .delay := by decide +kernel
theorem test_phases : (run .standbyPowerUp (inlet .wait)).startUp.phase = 0 ∧ (run (.slotPinRead 1) (starting 0)).startUp.slot = some 1 ∧
    (run .slotPinTimeout (starting 0)).startUp.fail = 1 ∧ (run (.bellTrainingDone []) (starting 1)).startUp.phase = 2 ∧
    (run (.bellTrainingDone [3]) (starting 1)).startUp.fail = 2 ∧ (run .restoreDone (starting 3)).startUp.phase = 4 ∧
    posts (run (.slotPinChange 1) serving) Cls.control 0xA4 0 [(1, 1), (1, 0)] := by decide +kernel
theorem test_claims : let owner (d : Dev) : Option Nat := (find d.stripes.sets 0).map StripeSet.owner
    owner (run (.claim 1 0 0 9 5) (claiming [0])) = some 0 ∧ owner (run (.claim 1 1 4 9 5) (claiming [0])) = none ∧
    owner (run (.claim 1 1 0 9 5) (claiming [])) = none ∧ owner (run (.claim 1 0 0 9 5) (claiming [])) = some 0 ∧
    owner (run (.peerWaitTimeout [] 5) (claiming [])) = some 2 ∧ owner (run (.peerWaitTimeout [(0, 1)] 5) (claiming [])) = some 0 := by decide +kernel

theorem witness_Canonical : Canonical State.reset.dev ∧ step { State.reset with pending := [.breathEdge] } = exec .breathEdge State.reset := by
  refine ⟨?_, rfl⟩
  unfold Canonical; decide +kernel

end Sys2Proof.Tests
end

section
/-! What one Gullot instruction of a thread can do, said once (R160, R176, R189, R190): it retires, stalls, faults or ends its
activation; and how each of these answers a claim about the command. -/

namespace Sys2Proof.Machine

open Sys2Proof

/-! ### A general register written -/

/-- Writing a general register changes the registers only. -/
theorem Activation.setReg_eq (a : Activation) (n v : Nat) : a.setReg n v = { a with regs := (a.setReg n v).regs } := by
  unfold Activation.setReg
  split
  · rfl
  · split <;> rfl

/-- A general register holds a 64-bit value. -/
theorem Activation.reg_lt (a : Activation) (n : Nat) : a.reg n < 2 ^ 64 := by
  unfold Activation.reg
  split
  · decide
  · exact BitVec.isLt _

/-- A general register as a machine word. -/
theorem Activation.toNat_reg (a : Activation) (n : Nat) : (BitVec.ofNat 64 (a.reg n)).toNat = a.reg n :=
  BitVec.toNat_ofNat .. |>.trans (Nat.mod_eq_of_lt (a.reg_lt n))

/-! ### Issuing an instruction -/

/-- Issuing an instruction moves only the countdowns of instruction tagging (R469). -/
theorem tagIssue_only (d : Dev) (t p k : Nat) :
    d.tagIssue t p k = { d with counters := { d.counters with tags := (d.tagIssue t p k).counters.tags } } := by
  unfold Dev.tagIssue
  dsimp only
  split
  · rfl
  · split <;> rfl

@[simp] theorem Dev.tagIssue_chanters (d : Dev) (t p k : Nat) : (d.tagIssue t p k).chanters = d.chanters := by rw [tagIssue_only]

/-- An instruction of every kind of activation may run in each (R189). -/
theorem Gullot.allowedIn_of_kinds {i : Gullot} (h : i.kinds = 7) (w : Work) : i.allowedIn w.kind = true := by
  cases w <;> simp [Gullot.allowedIn, h, bitOf, Work.kind]

/-- A `post` is let through in every kind (R189). -/
theorem Gullot.allowedIn_post (g k : Nat) : (Gullot.post g).allowedIn k = true := by simp [Gullot.allowedIn]

/-! ### One instruction carried out -/

section
variable {d : Dev} {t : Nat} {g : Gullot} {f : Activation → Ran} {x : Activation}

/-- A word past the code, or an instruction that the kind does not allow, raises ILLEGAL (R176, R189). -/
theorem execute_illegal (hx : find d.chanters.threads t = some x) (ha : x.awaiting = 0)
    (hi : x.codeWords ≤ x.pc ∨ g.allowedIn x.work.kind = false) :
    d.execute t g f = (d.tagIssue t x.progId x.work.kind).faultThread t FaultCode.illegal := by
  have hb : (decide (x.pc ≥ x.codeWords) || !g.allowedIn x.work.kind) = true := by simpa using hi
  simp only [Dev.execute, hx, ha, hb, ne_eq, not_true_eq_false, if_false, if_true]

variable (hx : find d.chanters.threads t = some x) (ha : x.awaiting = 0) (hp : x.pc < x.codeWords)
  (hk : g.allowedIn x.work.kind = true)
include hx ha hp hk

theorem execute_stall (hf : f x = .stall) : d.execute t g f = d := by
  simp [Dev.execute, hx, ha, hk, hf, Nat.not_le.2 hp]

theorem execute_fault {c : Nat} (hf : f x = .fault c) :
    d.execute t g f = (d.tagIssue t x.progId x.work.kind).faultThread t c := by
  simp [Dev.execute, hx, ha, hk, hf, Nat.not_le.2 hp]

/-- The instruction that would spend the budget raises BUDGET instead of retiring (R190). -/
theorem execute_budget {e : Dev} {b : Activation} {next : Nat} (hf : f x = .done e b next)
    (hs : x.limit * 65536 ≤ x.sinsn + 1) :
    d.execute t g f = (d.tagIssue t x.progId x.work.kind).faultThread t FaultCode.budget := by
  simp [Dev.execute, hx, ha, hk, hf, Nat.not_le.2 hp, hs]

variable (hs : x.sinsn + 1 < x.limit * 65536)
include hs

theorem execute_done {e : Dev} {b : Activation} {next : Nat} (hf : f x = .done e b next) :
    d.execute t g f =
      (e.onChanters fun c => { c with threads := put c.threads t { b with pc := next, sinsn := b.sinsn + 1 } }).tagIssue
        t x.progId x.work.kind := by
  simp [Dev.execute, hx, ha, hk, hf, Nat.not_le.2 hp, Nat.not_le.2 hs]

theorem execute_ended {e : Dev} (hf : f x = .ended e) : d.execute t g f = e.tagIssue t x.progId x.work.kind := by
  simp [Dev.execute, hx, ha, hk, hf, Nat.not_le.2 hp, Nat.not_le.2 hs]

end

/-! ### From the outcome of an instruction to a claim about the command -/

section
variable {i : Instr} {s : State} {t : Nat} {g : Gullot} {f : Dev → Activation → Ran} {x : Activation}

theorem faults_of_past_code (hi : exec i s = s.act fun d => d.execute t g (f d)) (hx : find s.dev.chanters.threads t = some x)
    (ha : x.awaiting = 0) (hp : x.codeWords ≤ x.pc) : Faults i s t FaultCode.illegal :=
  ⟨_, tagIssue_only .., hi.trans (by rw [State.act, execute_illegal hx ha (.inl hp)])⟩

theorem faults_of_budget (hi : exec i s = s.act fun d => d.execute t g (f d)) (hx : find s.dev.chanters.threads t = some x)
    (ha : x.awaiting = 0) (hp : x.pc < x.codeWords) (hk : g.allowedIn x.work.kind = true) {e : Dev} {b : Activation} {next : Nat}
    (hf : f s.dev x = .done e b next) (hs : x.limit * 65536 ≤ x.sinsn + 1) : Faults i s t FaultCode.budget :=
  ⟨_, tagIssue_only .., hi.trans (by rw [State.act, execute_budget hx ha hp hk hf hs])⟩

variable (hi : exec i s = s.act fun d => d.execute t g (f d)) (hr : CanRun s t x) (hk : g.kinds = 7)
include hi hr hk

theorem idles_of_stall (hf : f s.dev x = .stall) : Idles i s := by
  obtain ⟨hx, ha, hp, -⟩ := hr
  exact hi.trans (by rw [State.act, execute_stall hx ha hp (Gullot.allowedIn_of_kinds hk _) hf])

theorem faults_of_fault {c : Nat} (hf : f s.dev x = .fault c) : Faults i s t c := by
  obtain ⟨hx, ha, hp, -⟩ := hr
  exact ⟨_, tagIssue_only .., hi.trans (by rw [State.act, execute_fault hx ha hp (Gullot.allowedIn_of_kinds hk _) hf])⟩

/-- An instruction that retires puts its activation on its thread of the module it leaves, and moves a countdown of tagging. -/
theorem runs_of_done {e : Dev} {b : Activation} {next : Nat} (hf : f s.dev x = .done e b next) :
    Runs i s fun d => ∃ u : Table TagUnit, d = { e with
      counters := { e.counters with tags := u }
      chanters := { e.chanters with threads := put e.chanters.threads t { b with pc := next, sinsn := b.sinsn + 1 } } } := by
  obtain ⟨hx, ha, hp, hs⟩ := hr
  exact ⟨_, hi.trans (by rw [State.act, execute_done hx ha hp (Gullot.allowedIn_of_kinds hk _) hs hf]), _, tagIssue_only ..⟩

/-- One that leaves the rest of the module as it was changes nothing but its thread. -/
theorem retires_of_done {b : Activation} {next : Nat} (hf : f s.dev x = .done s.dev b next) :
    Retires i s t { b with pc := next, sinsn := b.sinsn + 1 } := by
  obtain ⟨d, hd, u, rfl⟩ := runs_of_done hi hr hk hf
  exact ⟨_, hd, find_put_self .., fun _ hu => find_put_ne _ _ hu, rfl⟩

/-- An instruction that retires with one general register set writes that register and keeps the others. -/
theorem writes_of_done {rd v next : Nat} (hf : f s.dev x = .done s.dev (x.setReg rd v) next) :
    Writes i s t x rd (v % 2 ^ 64) next := by
  refine ⟨(x.setReg rd v).regs, fun n => ?_, ?_⟩
  · rw [← Activation.reg_setReg]; rfl
  · have h := retires_of_done hi hr hk hf
    rwa [Activation.setReg_eq] at h

end

end Sys2Proof.Machine
end

section
/-! The integer instructions (R192, R196, R197): each result of the model as the 64-bit operation it is. -/

namespace Sys2Proof.Machine

open Sys2Proof

/-! ### Two's complement -/

/-- The signed value of a field is that of the machine word of its width. -/
theorem signedOf_eq_toInt (v w : Nat) : signedOf v w = (BitVec.ofNat w v).toInt := by
  rw [signedOf, BitVec.toInt_eq_toNat_cond, BitVec.toNat_ofNat]
  cases w with
  | zero => simp [Nat.mod_one]
  | succ w =>
    rw [Nat.add_sub_cancel]
    have h : v % 2 ^ (w + 1) < 2 ^ w ↔ 2 * (v % 2 ^ (w + 1)) < 2 ^ (w + 1) := by rw [Nat.pow_succ']; omega
    simp only [h]
    push_cast
    rfl

@[simp] theorem signedOf_toNat {w : Nat} (x : BitVec w) : signedOf x.toNat w = x.toInt := by
  rw [signedOf_eq_toInt, BitVec.ofNat_toNat, BitVec.setWidth_eq]

/-- The low bits of an integer are those of the machine word made of it. -/
theorem unsignedOf_eq_toNat (v : Int) (w : Nat) : unsignedOf v w = (BitVec.ofInt w v).toNat := by
  rw [BitVec.toNat_ofInt]; rfl

theorem signExtend_eq_toNat (imm : Nat) : signExtend imm = ((BitVec.ofNat 16 imm).signExtend 64).toNat := by
  rw [signExtend, unsignedOf_eq_toNat, signedOf_eq_toInt]; rfl

/-- The zero-extended immediate as a machine word. -/
theorem zeroExtend_eq_toNat (imm : Nat) : imm % 2 ^ 16 = ((BitVec.ofNat 16 imm).setWidth 64).toNat := by
  rw [BitVec.toNat_setWidth, BitVec.toNat_ofNat, Nat.mod_eq_of_lt (b := 2 ^ 64)]
  exact (Nat.mod_lt _ (by decide)).trans (by decide)

theorem flag_eq_toNat (b : Bool) : flag b = (if b then (1 : Word) else 0).toNat := by cases b <;> rfl

/-! ### Results of the R-type operations -/

namespace AluOp

theorem eval_add (x y : Word) : add.eval x.toNat y.toNat = (x + y).toNat := (BitVec.toNat_add ..).symm

theorem eval_sub (x y : Word) : sub.eval x.toNat y.toNat = (x - y).toNat := by
  rw [BitVec.toNat_sub, eval]; omega

theorem eval_and (x y : Word) : and.eval x.toNat y.toNat = (x &&& y).toNat := rfl

theorem eval_or (x y : Word) : or.eval x.toNat y.toNat = (x ||| y).toNat := rfl

theorem eval_xor (x y : Word) : xor.eval x.toNat y.toNat = (x ^^^ y).toNat := rfl

theorem eval_not (x : Word) (b : Nat) : not.eval x.toNat b = (~~~x).toNat := (BitVec.toNat_not).symm

theorem eval_sll (x : Word) (n : Nat) : sll.eval x.toNat n = (x <<< (n % 64)).toNat := by
  rw [BitVec.toNat_shiftLeft, Nat.shiftLeft_eq]; rfl

theorem eval_srl (x : Word) (n : Nat) : srl.eval x.toNat n = (x >>> (n % 64)).toNat := by
  rw [BitVec.toNat_ushiftRight, Nat.shiftRight_eq_div_pow]; rfl

theorem eval_sra (x : Word) (n : Nat) : sra.eval x.toNat n = (x.sshiftRight (n % 64)).toNat := by
  rw [eval, shiftSigned, unsignedOf_eq_toNat, signedOf_toNat, BitVec.sshiftRight, Int.shiftRight_eq_div_pow]

theorem eval_slt (x y : Word) : slt.eval x.toNat y.toNat = (if x.slt y then (1 : Word) else 0).toNat := by
  rw [← flag_eq_toNat, eval, signedOf_toNat, signedOf_toNat, BitVec.slt]

theorem eval_sltu (x y : Word) : sltu.eval x.toNat y.toNat = (if x.ult y then (1 : Word) else 0).toNat := by
  rw [← flag_eq_toNat, eval, BitVec.ult]

theorem eval_mul (x y : Word) : mul.eval x.toNat y.toNat = (x * y).toNat := (BitVec.toNat_mul ..).symm

theorem eval_mulhu (x y : Word) : mulhu.eval x.toNat y.toNat = (BitVec.ofNat 64 (x.toNat * y.toNat / 2 ^ 64)).toNat := by
  have h : x.toNat * y.toNat < 2 ^ 64 * 2 ^ 64 := Nat.mul_lt_mul'' x.isLt y.isLt
  rw [BitVec.toNat_ofNat, Nat.mod_eq_of_lt (Nat.div_lt_of_lt_mul h), eval]

theorem eval_divu (x y : Word) : divu.eval x.toNat y.toNat = (if y = 0 then BitVec.allOnes 64 else x.udiv y).toNat := by
  have h : y.toNat = 0 ↔ y = 0 := BitVec.toNat_inj (y := 0)
  rw [eval]
  split <;> rename_i hy
  · rw [if_pos (h.1 hy), BitVec.toNat_allOnes]
  · rw [if_neg (mt h.2 hy)]; exact BitVec.toNat_udiv.symm

theorem eval_remu (x y : Word) : remu.eval x.toNat y.toNat = (if y = 0 then x else x.umod y).toNat := by
  have h : y.toNat = 0 ↔ y = 0 := BitVec.toNat_inj (y := 0)
  rw [eval]
  split <;> rename_i hy
  · rw [if_pos (h.1 hy)]
  · rw [if_neg (mt h.2 hy)]; exact BitVec.toNat_umod.symm

end AluOp

/-! ### Counting bits -/

/-- The bit of a number as the bit of a machine word that holds it. -/
theorem bitOf_eq_testBit (v n : Nat) : bitOf v n = v.testBit n := by
  rw [bitOf, Nat.testBit_eq_decide_div_mod_eq]; rfl

theorem bitOf_toNat {w : Nat} (x : BitVec w) (n : Nat) : bitOf x.toNat n = x.getLsbD n := bitOf_eq_testBit ..

/-- Summing a flag over a list counts the elements that raise it. -/
theorem foldl_flag_eq_length_filter (p : Nat → Bool) (l : List Nat) : ∀ n,
    l.foldl (fun n i => n + flag (p i)) n = n + (l.filter p).length := by
  induction l with
  | nil => intro n; rfl
  | cons i l ih =>
    intro n
    rw [List.foldl_cons, ih, List.filter_cons]
    cases p i <;> simp [flag]; omega

/-- The population is the number of 1 bits. -/
theorem population_toNat (x : Word) : population x.toNat = ((List.range 64).filter fun i => x.getLsbD i).length := by
  have h : bitOf x.toNat = x.getLsbD := funext (bitOf_toNat x)
  rw [population, foldl_flag_eq_length_filter, Nat.zero_add, h]

/-- The first index below a bound that passes a test, or the bound: no smaller index passes, and it passes itself if it is below the bound. -/
theorem firstIndex_spec (p : Nat → Bool) (n : Nat) :
    let k := ((List.range n).find? p).getD n
    k ≤ n ∧ (∀ i < k, p i = false) ∧ (k < n → p k = true) := by
  dsimp only
  cases h : (List.range n).find? p with
  | none =>
    rw [List.find?_range_eq_none] at h
    refine ⟨le_rfl, fun i hi => by simpa using h i hi, fun hn => absurd hn (lt_irrefl n)⟩
  | some k =>
    rw [List.find?_range_eq_some] at h
    obtain ⟨hp, hn, hl⟩ := h
    exact ⟨(List.mem_range.1 hn).le, fun i hi => by simpa using hl i hi, fun _ => hp⟩

/-- A power of two divides a number whose low bits are all 0. -/
theorem two_pow_dvd_of_bits {v n : Nat} (h : ∀ i < n, bitOf v i = false) : 2 ^ n ∣ v := by
  refine Nat.dvd_of_mod_eq_zero (Nat.eq_of_testBit_eq fun i => ?_)
  rw [Nat.testBit_mod_two_pow, Nat.zero_testBit]
  by_cases hi : i < n
  · rw [← bitOf_eq_testBit, h i hi, Bool.and_false]
  · simp [hi]

/-- A 64-bit value whose `n` high bits are all 0 lies below 2^(64 - n). -/
theorem lt_of_high_bits {v n : Nat} (hv : v < 2 ^ 64) (h : ∀ i < n, bitOf v (63 - i) = false) : v < 2 ^ (64 - n) := by
  refine Nat.lt_pow_two_of_testBit v fun i hi => ?_
  by_cases h64 : i < 64
  · have := h (63 - i) (by omega)
    rwa [show 63 - (63 - i) = i by omega, bitOf_eq_testBit] at this
  · exact Nat.testBit_lt_two_pow (hv.trans_le (Nat.pow_le_pow_right (by decide) (Nat.not_lt.1 h64)))

/-! ### `liq` -/

/-- A number with a field replaced has the new bits in the field and its own elsewhere. -/
theorem testBit_withBits (v lo w x i : Nat) :
    (withBits v lo w x).testBit i = if lo ≤ i ∧ i < lo + w then x.testBit (i - lo) else v.testBit i := by
  have hl := withBits_mod v lo w x
  have hm := bitsOf_withBits v lo w x
  have hh := withBits_div v lo w x
  rcases lt_or_ge i lo with h | h
  · have := congrArg (Nat.testBit · i) hl
    simpa [Nat.testBit_mod_two_pow, h, Nat.not_le.2 h] using this
  · rcases lt_or_ge i (lo + w) with hi | hi
    · have := congrArg (Nat.testBit · (i - lo)) hm
      simp only [bitsOf, Nat.testBit_mod_two_pow, Nat.testBit_div_two_pow, show i - lo < w by omega, decide_true, Bool.true_and,
        Nat.sub_add_cancel h] at this
      simpa [h, hi] using this
    · have := congrArg (Nat.testBit · (i - (lo + w))) hh
      simp only [Nat.testBit_div_two_pow, Nat.sub_add_cancel hi] at this
      simpa [Nat.not_lt.2 hi] using this

/-- `liq` clears one quarter of a register and puts the immediate there (R197). -/
theorem liqEval_eq_toNat (x : Word) {q : Nat} (hq : q < 4) (imm : Nat) :
    liqEval x.toNat q imm =
      ((x &&& ~~~(BitVec.ofNat 64 0xFFFF <<< (16 * q))) ||| ((BitVec.ofNat 16 imm).setWidth 64 <<< (16 * q))).toNat := by
  have mask (j : Nat) : Nat.testBit 65535 j = decide (j < 16) := Nat.testBit_two_pow_sub_one 16 j
  refine Nat.eq_of_testBit_eq fun i => ?_
  rw [liqEval, testBit_withBits, Nat.mod_eq_of_lt hq]
  simp only [BitVec.testBit_toNat, BitVec.getLsbD_or, BitVec.getLsbD_and, BitVec.getLsbD_not, BitVec.getLsbD_shiftLeft,
    BitVec.getLsbD_setWidth, BitVec.getLsbD_ofNat, mask]
  by_cases h64 : i < 64
  · by_cases hlo : 16 * q ≤ i
    · by_cases hhi : i < 16 * q + 16
      · simp [hlo, hhi, h64, show i - 16 * q < 16 by omega, show i - 16 * q < 64 by omega, Nat.not_lt.2 hlo]
      · simp [hlo, hhi, h64, show ¬ i - 16 * q < 16 by omega]
    · simp [hlo, h64, Nat.not_le.1 hlo]
  · simp [h64, show ¬ i < 16 * q + 16 by omega, BitVec.getLsbD_of_ge x i (Nat.not_lt.1 h64)]

end Sys2Proof.Machine
end

section
/-! The integer instructions carried out: what each row of `integerRows` writes, and the function codes of the R-type words. -/

namespace Sys2Proof.Machine

open Sys2Proof

/-! ### Results of the immediate operations -/

namespace ImmOp

theorem eval_addi (x : Word) (v : Nat) : addi.eval x.toNat v = (x + (BitVec.ofNat 16 v).signExtend 64).toNat := by
  rw [eval, signExtend_eq_toNat, AluOp.eval_add]

theorem eval_andi (x : Word) (v : Nat) : andi.eval x.toNat v = (x &&& (BitVec.ofNat 16 v).setWidth 64).toNat := by
  rw [eval, zeroExtend_eq_toNat]; rfl

theorem eval_ori (x : Word) (v : Nat) : ori.eval x.toNat v = (x ||| (BitVec.ofNat 16 v).setWidth 64).toNat := by
  rw [eval, zeroExtend_eq_toNat]; rfl

theorem eval_xori (x : Word) (v : Nat) : xori.eval x.toNat v = (x ^^^ (BitVec.ofNat 16 v).setWidth 64).toNat := by
  rw [eval, zeroExtend_eq_toNat]; rfl

theorem eval_slti (x : Word) (v : Nat) :
    slti.eval x.toNat v = (if x.slt ((BitVec.ofNat 16 v).signExtend 64) then (1 : Word) else 0).toNat := by
  rw [eval, signExtend_eq_toNat, AluOp.eval_slt]

theorem eval_sltiu (x : Word) (v : Nat) :
    sltiu.eval x.toNat v = (if x.ult ((BitVec.ofNat 16 v).signExtend 64) then (1 : Word) else 0).toNat := by
  rw [eval, signExtend_eq_toNat, AluOp.eval_sltu]

theorem eval_slli (x : Word) (v : Nat) : slli.eval x.toNat v = (x <<< (v % 64)).toNat := by
  rw [eval, AluOp.eval_sll, Nat.mod_mod]

theorem eval_srli (x : Word) (v : Nat) : srli.eval x.toNat v = (x >>> (v % 64)).toNat := by
  rw [eval, AluOp.eval_srl, Nat.mod_mod]

theorem eval_srai (x : Word) (v : Nat) : srai.eval x.toNat v = (x.sshiftRight (v % 64)).toNat := by
  rw [eval, AluOp.eval_sra, Nat.mod_mod]

end ImmOp

/-! ### What an integer instruction writes -/

section
variable {i : Instr} {s : State} {t d a b imm : Nat} {x : Activation}

/-- An instruction whose meaning is to write one register retires with its value. -/
theorem writes_of_writes {g : Gullot} {v : Dev → Activation → Nat} (hi : exec i s = s.act fun y => y.writes t g d (v y))
    (hr : CanRun s t x) (hk : g.kinds = 7) : Writes i s t x d (v s.dev x % 2 ^ 64) (x.pc + 1) :=
  writes_of_done (f := fun y z => .done y (z.setReg d (v y z)) (z.pc + 1)) hi hr hk rfl

/-- An R-type instruction writes the word that its operation gives of the words in ga and gb. -/
theorem writes_of_alu {op : AluOp} {w : Word} (hi : exec i s = s.act fun y => y.alu t op d a b) (hr : CanRun s t x)
    (hw : op.eval (BitVec.ofNat 64 (x.reg a)).toNat (BitVec.ofNat 64 (x.reg b)).toNat = w.toNat) :
    Writes i s t x d w.toNat (x.pc + 1) := by
  have h := writes_of_writes (v := fun _ z => op.eval (z.reg a) (z.reg b)) hi hr rfl
  rwa [← x.toNat_reg a, ← x.toNat_reg b, hw, Nat.mod_eq_of_lt w.isLt] at h

/-- An immediate instruction writes the word that its operation gives of the word in ga and the immediate. -/
theorem writes_of_immediate {op : ImmOp} {w : Word} (hi : exec i s = s.act fun y => y.immediate t op d a imm) (hr : CanRun s t x)
    (hw : op.eval (BitVec.ofNat 64 (x.reg a)).toNat imm = w.toNat) : Writes i s t x d w.toNat (x.pc + 1) := by
  have h := writes_of_writes (v := fun _ z => op.eval (z.reg a) imm) hi hr rfl
  rwa [← x.toNat_reg a, hw, Nat.mod_eq_of_lt w.isLt] at h

/-- An R-type instruction whose result fits a small number writes that number. -/
theorem writes_count {op : AluOp} (hi : exec i s = s.act fun y => y.alu t op d a b) (hr : CanRun s t x)
    (hn : op.eval (x.reg a) (x.reg b) ≤ 64) : Writes i s t x d (op.eval (x.reg a) (x.reg b)) (x.pc + 1) := by
  have h := writes_of_writes (v := fun _ z => op.eval (z.reg a) (z.reg b)) hi hr rfl
  rwa [Nat.mod_eq_of_lt (hn.trans_lt (by decide))] at h

end

/-- Every row of the integer instructions (R192, R196). -/
theorem integerRows_write {s : State} {t : Nat} {x : Activation} (hr : CanRun s t x) (d a b imm : Nat) :
    ∀ r ∈ integerRows t d a b imm,
      Writes r.1 s t x d (r.2 (BitVec.ofNat 64 (x.reg a)) (BitVec.ofNat 64 (x.reg b))).toNat (x.pc + 1) := by
  simp only [integerRows, List.forall_mem_cons]
  refine ⟨?_, ?_, ?_, ?_, ?_, ?_, ?_, ?_, ?_, ?_, ?_, ?_, ?_, ?_, ?_, ?_, ?_, ?_, ?_, ?_, ?_, ?_, ?_, ?_, fun _ h => nomatch h⟩
  · exact writes_of_alu rfl hr (AluOp.eval_add ..)
  · exact writes_of_alu rfl hr (AluOp.eval_sub ..)
  · exact writes_of_alu rfl hr (AluOp.eval_and ..)
  · exact writes_of_alu rfl hr (AluOp.eval_or ..)
  · exact writes_of_alu rfl hr (AluOp.eval_xor ..)
  · exact writes_of_alu (b := 0) rfl hr (AluOp.eval_not ..)
  · exact writes_of_alu rfl hr (AluOp.eval_sll ..)
  · exact writes_of_alu rfl hr (AluOp.eval_srl ..)
  · exact writes_of_alu rfl hr (AluOp.eval_sra ..)
  · exact writes_of_alu rfl hr (AluOp.eval_slt ..)
  · exact writes_of_alu rfl hr (AluOp.eval_sltu ..)
  · exact writes_of_alu rfl hr (AluOp.eval_mul ..)
  · exact writes_of_alu rfl hr (AluOp.eval_mulhu ..)
  · exact writes_of_alu rfl hr (AluOp.eval_divu ..)
  · exact writes_of_alu rfl hr (AluOp.eval_remu ..)
  · exact writes_of_immediate rfl hr (ImmOp.eval_addi ..)
  · exact writes_of_immediate rfl hr (ImmOp.eval_andi ..)
  · exact writes_of_immediate rfl hr (ImmOp.eval_ori ..)
  · exact writes_of_immediate rfl hr (ImmOp.eval_xori ..)
  · exact writes_of_immediate rfl hr (ImmOp.eval_slti ..)
  · exact writes_of_immediate rfl hr (ImmOp.eval_sltiu ..)
  · exact writes_of_immediate rfl hr (ImmOp.eval_slli ..)
  · exact writes_of_immediate rfl hr (ImmOp.eval_srli ..)
  · exact writes_of_immediate rfl hr (ImmOp.eval_srai ..)

section
variable {s : State} {t : Nat} {x : Activation} (hr : CanRun s t x) (d a : Nat)
include hr

theorem pcnt_writes :
    Writes (.pcnt t d a) s t x d ((List.range 64).filter fun i => (BitVec.ofNat 64 (x.reg a)).getLsbD i).length (x.pc + 1) := by
  have he : AluOp.pcnt.eval (x.reg a) (x.reg 0) = _ := (congrArg population (x.toNat_reg a)).symm.trans (population_toNat _)
  rw [← he]
  exact writes_count rfl hr (he.trans_le (List.length_filter_le ..))

/-- `ctz` writes the exponent of the largest power of two that divides ga, 64 for 0. -/
theorem ctz_writes : ∃ n, Writes (.ctz t d a) s t x d n (x.pc + 1) ∧ n ≤ 64 ∧
    2 ^ n ∣ x.reg a + (if x.reg a = 0 then 2 ^ 64 else 0) ∧ (n < 64 → bitOf (x.reg a) n = true) := by
  obtain ⟨hn, hlow, hbit⟩ := firstIndex_spec (bitOf (x.reg a)) 64
  refine ⟨trailingZeros (x.reg a), writes_count (op := .ctz) (b := 0) rfl hr hn, hn, (two_pow_dvd_of_bits hlow).add ?_, hbit⟩
  split
  · exact pow_dvd_pow 2 hn
  · exact Nat.dvd_zero _

/-- `clz` writes the number of high bits that are 0. -/
theorem clz_writes : ∃ n, Writes (.clz t d a) s t x d n (x.pc + 1) ∧ n ≤ 64 ∧ x.reg a < 2 ^ (64 - n) ∧
    (n < 64 → 2 ^ (63 - n) ≤ x.reg a) := by
  obtain ⟨hn, hhigh, hbit⟩ := firstIndex_spec (fun i => bitOf (x.reg a) (63 - i)) 64
  refine ⟨leadingZeros (x.reg a), writes_count (op := .clz) (b := 0) rfl hr hn, hn, lt_of_high_bits (x.reg_lt a) hhigh, fun h => ?_⟩
  have hb := hbit h
  rw [bitOf_eq_testBit] at hb
  exact Nat.ge_two_pow_of_testBit hb

theorem liq_writes {q : Nat} (hq : q < 4) (imm : Nat) : Writes (.liq t d q imm) s t x d
    ((BitVec.ofNat 64 (x.reg d) &&& ~~~(BitVec.ofNat 64 0xFFFF <<< (16 * q))) ||| ((BitVec.ofNat 16 imm).setWidth 64 <<< (16 * q))).toNat
    (x.pc + 1) := by
  have h : Writes (.liq t d q imm) s t x d _ _ := writes_of_writes (v := fun _ z => liqEval (z.reg d) q imm) rfl hr rfl
  rwa [← x.toNat_reg d, liqEval_eq_toNat _ hq, Nat.mod_eq_of_lt (BitVec.isLt _)] at h

end

/-! ### Function codes (R187, R196) -/

theorem Gullot.keep_eq_some {b : Bool} {i j : Gullot} : Gullot.keep b i = some j ↔ b = true ∧ i = j := by
  cases b <;> simp [Gullot.keep]

/-- The arms of the other opcodes give no R-type instruction. -/
theorem Gullot.opcode_of_decode_eq_alu {w d a b : Nat} {op : AluOp} (h : Gullot.decode w = some (.alu op d a b)) :
    w / 2 ^ 26 % 64 = 0 := by
  by_contra h0
  simp only [Gullot.decode, if_neg h0, ite_eq_iff, keep_eq_some, Option.bind_eq_some_iff, Option.some.injEq, reduceCtorEq, and_false,
    exists_false, false_or] at h

/-- An R-type word carries the code of its operation in its low 11 bits, and gb = 0 where the operation has one source. -/
theorem Gullot.decode_eq_alu {w d a b : Nat} {op : AluOp} (h : Gullot.decode w = some (.alu op d a b)) :
    w % 2048 = op.code ∧ (op.unary = true → b = 0) := by
  have h0 := opcode_of_decode_eq_alu h
  simp only [Gullot.decode, if_pos h0] at h
  obtain ⟨o, ho, h⟩ := Option.bind_eq_some_iff.1 h
  obtain ⟨hu, h⟩ := keep_eq_some.1 h
  have hc := List.find?_some ho
  cases h
  refine ⟨?_, fun hop => by simpa [hop] using hu⟩
  rw [Nat.mod_mod_of_dvd _ (by decide : 2 ^ 11 ∣ 2 ^ 16), beq_iff_eq] at hc
  exact hc.symm

/-- Settles O23: the arithmetic of each operation is that of 64-bit words, and each instruction retires by one rule. -/
theorem integerInstructions : Obligations.IntegerInstructions := by
  unfold Obligations.IntegerInstructions
  refine ⟨fun s t d a b imm x hr => integerRows_write hr d a b imm, fun s t d a x hr => ⟨pcnt_writes hr d a, ctz_writes hr d a, clz_writes hr d a⟩,
    fun s t d q imm x hr hq => liq_writes hr d hq imm, fun w d a b op h => ?_⟩
  obtain ⟨hc, hb⟩ := Gullot.decode_eq_alu h
  rw [hc]
  constructor
  · cases op <;> decide
  · intro hu
    simp only [List.mem_cons, List.not_mem_nil, or_false] at hu
    rcases hu with rfl | rfl | rfl | rfl <;> exact hb rfl

end Sys2Proof.Machine
end

section
/-! Loads and stores (R167, R171, R191, R193, R195): what a capability address comes to, and what a load or store does with it. -/

namespace Sys2Proof.Machine

open Sys2Proof

/-! ### Lengths -/

theorem leNat_lt (b : Bytes) : leNat b < 256 ^ b.length := by
  induction b with
  | nil => simp [leNat]
  | cons x t ih =>
    have hx : x.toNat < 256 := x.isLt
    rw [leNat, List.length_cons, Nat.pow_succ']
    omega

@[simp] theorem length_slice (b : Bytes) (start n : Nat) : (slice b start n).length = n := by
  simp only [slice, zeros, List.length_append, List.length_take, List.length_drop, List.length_replicate]; omega

@[simp] theorem length_readBytes (m : List Host.Cell) (n : Nat) : ∀ a, (readBytes m a n).length = n := by
  induction n with
  | zero => intro a; rfl
  | succ n ih => intro a; simp [readBytes, ih]

@[simp] theorem Dev.length_areaBytes (d : Dev) (a : Activation) (x : Area) (start n : Nat) : (d.areaBytes a x start n).length = n := by
  cases x <;> simp [Dev.areaBytes]

/-- The bytes of a load fit a general register. -/
theorem Size.loaded_lt (z : Size) (d : Dev) (a : Activation) (x : Area) (start : Nat) :
    leNat (d.areaBytes a x start z.bytes) < 2 ^ 64 :=
  calc leNat (d.areaBytes a x start z.bytes)
    _ < 256 ^ z.bytes := (leNat_lt _).trans_eq (by rw [d.length_areaBytes])
    _ ≤ 2 ^ 64 := by cases z <;> decide

/-! ### Capability addresses (R167, R171, R193) -/

section
variable {a : Activation} {base imm n k : Nat} {right : Cap → Bool}

theorem effective_malformed (hl : base < 2 ^ 64) (h : 2 ^ 51 ≤ base) : a.effective base imm n right = .error FaultCode.malformed := by
  rw [Activation.effective, if_pos]
  rw [bitsOf]; omega

/-- An address below 2^51 is well formed, and names the window of its high bits. -/
theorem address_wellFormed (h : base < 2 ^ 51) : bitsOf base 51 13 = 0 ∧ bitsOf base 48 3 = base / 2 ^ 48 := by
  rw [bitsOf, bitsOf]; omega

theorem effective_below (h : base < 2 ^ 51) (ho : signedOf base 48 + signedOf imm 16 < 0) :
    a.effective base imm n right = .error FaultCode.bounds := by
  simp only [Activation.effective, (address_wellFormed h).1, ne_eq, not_true_eq_false, if_false, if_pos ho]

variable (h : base < 2 ^ 51) (ho : signedOf base 48 + signedOf imm 16 = (k : Nat))
include h ho

/-- An access at an offset that is not negative is the access to the window it names, with its alignment checked last. -/
theorem effective_eq_bind : a.effective base imm n right =
    (a.access (base / 2 ^ 48) k n right).bind fun s => if s.start % n ≠ 0 then .error FaultCode.misaligned else .ok s := by
  obtain ⟨hw, hb⟩ := address_wellFormed h
  simp only [Activation.effective, hw, hb, ho, ne_eq, not_true_eq_false, if_false, Int.toNat_natCast,
    if_neg (not_lt.2 (Int.natCast_nonneg k))]
  cases a.access (base / 2 ^ 48) k n right <;> rfl

theorem effective_outside (hc : ∀ c, find a.caps (base / 2 ^ 48) = some c → c.length < k + n) :
    a.effective base imm n right = .error FaultCode.bounds := by
  rw [effective_eq_bind h ho, Activation.access]
  cases hf : find a.caps (base / 2 ^ 48) with
  | none => rfl
  | some c => simp only [gt_iff_lt, if_pos (hc c hf)]; rfl

variable {c : Cap} (hf : find a.caps (base / 2 ^ 48) = some c) (hl : k + n ≤ c.length)
include hf hl

theorem effective_noRight (hr : right c = false) : a.effective base imm n right = .error FaultCode.rights := by
  simp only [effective_eq_bind h ho, Activation.access, hf, gt_iff_lt, Nat.not_lt.2 hl, if_false, hr, Bool.not_false, if_true]; rfl

theorem effective_aligned (hr : right c = true) : a.effective base imm n right =
    if (c.base + k) % n ≠ 0 then .error FaultCode.misaligned else .ok { area := c.area, start := c.base + k, length := n } := by
  simp only [effective_eq_bind h ho, Activation.access, hf, gt_iff_lt, Nat.not_lt.2 hl, if_false, hr, Bool.not_true, Bool.false_eq_true]
  rfl

end

/-- An access that reaches bytes passes every check. -/
theorem effective_of_reaches {a : Activation} {base imm n : Nat} {right : Cap → Bool} {p : Span} (h : Reaches a base imm n right p) :
    a.effective base imm n right = .ok p := by
  obtain ⟨hb, c, k, hf, ho, hl, hr, hm, rfl⟩ := h
  rw [effective_aligned hb ho hf hl hr, if_neg (not_not.2 hm)]

/-- Bytes written into an area count no instruction. -/
theorem Activation.write_sinsn (a : Activation) (x : Area) (start : Nat) (b : Bytes) : (a.write x start b).sinsn = a.sinsn := by
  cases x <;> rfl

/-! ### The rows -/

/-- Each load is the load of its size. -/
theorem exec_of_mem_loadRows {t d b imm : Nat} {r : Instr × Nat} (h : r ∈ loadRows t d b imm) :
    ∃ z : Size, r.2 = z.bytes ∧ ∀ s, exec r.1 s = s.act fun y => y.load t z d b imm := by
  simp only [loadRows, List.mem_cons, List.not_mem_nil, or_false] at h
  rcases h with rfl | rfl | rfl | rfl
  · exact ⟨.b, rfl, fun _ => rfl⟩
  · exact ⟨.h, rfl, fun _ => rfl⟩
  · exact ⟨.w, rfl, fun _ => rfl⟩
  · exact ⟨.d, rfl, fun _ => rfl⟩

/-- Each store is the store of its size. -/
theorem exec_of_mem_storeRows {t v b imm : Nat} {r : Instr × Nat} (h : r ∈ storeRows t v b imm) :
    ∃ z : Size, r.2 = z.bytes ∧ ∀ s, exec r.1 s = s.act fun y => y.store t z v b imm := by
  simp only [storeRows, List.mem_cons, List.not_mem_nil, or_false] at h
  rcases h with rfl | rfl | rfl | rfl
  · exact ⟨.b, rfl, fun _ => rfl⟩
  · exact ⟨.h, rfl, fun _ => rfl⟩
  · exact ⟨.w, rfl, fun _ => rfl⟩
  · exact ⟨.d, rfl, fun _ => rfl⟩

section
variable {s : State} {t d v b imm : Nat} {x : Activation} (hr : CanRun s t x) {r : Instr × Nat}
include hr

theorem load_writes (h : r ∈ loadRows t d b imm) {p : Span} (he : x.effective (x.reg b) imm r.2 Cap.mayRead = .ok p)
    (hd : x.inDest p = false) (hu : s.dev.unlanded x p = false) :
    Writes r.1 s t x d (leNat (s.dev.areaBytes x p.area p.start r.2)) (x.pc + 1) := by
  obtain ⟨z, hz, hi⟩ := exec_of_mem_loadRows h
  rw [hz] at he ⊢
  have hw := writes_of_done (hi s) hr rfl (rd := d) (v := leNat (s.dev.areaBytes x p.area p.start z.bytes)) (next := x.pc + 1)
    (by simp [he, hd, hu])
  rwa [Nat.mod_eq_of_lt (z.loaded_lt ..)] at hw

theorem load_idles (h : r ∈ loadRows t d b imm) {p : Span} (he : x.effective (x.reg b) imm r.2 Cap.mayRead = .ok p)
    (hd : x.inDest p = true) : Idles r.1 s := by
  obtain ⟨z, hz, hi⟩ := exec_of_mem_loadRows h
  rw [hz] at he
  exact idles_of_stall (hi s) hr rfl (by simp [he, hd])

theorem load_faults (h : r ∈ loadRows t d b imm) {c : Nat} (he : x.effective (x.reg b) imm r.2 Cap.mayRead = .error c) :
    Faults r.1 s t c := by
  obtain ⟨z, hz, hi⟩ := exec_of_mem_loadRows h
  rw [hz] at he
  exact faults_of_fault (hi s) hr rfl (by simp [he])

theorem store_retires (h : r ∈ storeRows t v b imm) {p : Span} (he : x.effective (x.reg b) imm r.2 Cap.mayWrite = .ok p)
    (hd : x.inDest p = false) (hs : x.inSource p = false) :
    Retires r.1 s t { x.write p.area p.start (leBytes r.2 (x.reg v)) with pc := x.pc + 1, sinsn := x.sinsn + 1 } := by
  obtain ⟨z, hz, hi⟩ := exec_of_mem_storeRows h
  rw [hz] at he ⊢
  have hw := retires_of_done (hi s) hr rfl (b := x.write p.area p.start (leBytes z.bytes (x.reg v))) (next := x.pc + 1)
    (by simp [he, hd, hs])
  rwa [Activation.write_sinsn] at hw

theorem store_faults (h : r ∈ storeRows t v b imm) {c : Nat} (he : x.effective (x.reg b) imm r.2 Cap.mayWrite = .error c) :
    Faults r.1 s t c := by
  obtain ⟨z, hz, hi⟩ := exec_of_mem_storeRows h
  rw [hz] at he
  exact faults_of_fault (hi s) hr rfl (by simp [he])

/-- A load or a store faults by the code of the check that its access fails. -/
theorem access_faults {q : Instr × Nat × (Cap → Bool)}
    (h : q ∈ (loadRows t d b imm).map (fun r => (r.1, r.2, Cap.mayRead)) ++ (storeRows t d b imm).map (fun r => (r.1, r.2, Cap.mayWrite)))
    {c : Nat} (he : x.effective (x.reg b) imm q.2.1 q.2.2 = .error c) : Faults q.1 s t c := by
  rcases List.mem_append.1 h with h | h
  · obtain ⟨r, hm, rfl⟩ := List.mem_map.1 h
    exact load_faults hr hm he
  · obtain ⟨r, hm, rfl⟩ := List.mem_map.1 h
    exact store_faults hr hm he

end

/-- c0 is the frame's window, which no program may write (R169). -/
theorem commonCaps_frame (scratch : Nat) (middle last : Table Cap) :
    find (commonCaps scratch middle last) 0 =
      some { area := .frame, base := 0, length := 256, mayRead := true, mayWrite := false, engSrc := false, engDst := false } := rfl

/-- Settles O24: each access is decided by its effective address, one lemma for each check that can fail. -/
theorem loadsAndStores : Obligations.LoadsAndStores := by
  unfold Obligations.LoadsAndStores
  refine ⟨?loads, ?stores, ?stalls, ?faults, ?frame⟩
  case loads =>
    intro s t d b imm x p hr r h hp hd hu
    exact load_writes hr h (effective_of_reaches hp) hd hu
  case stores =>
    intro s t v b imm x p hr r h hp hd hs
    exact store_retires hr h (effective_of_reaches hp) hd hs
  case stalls =>
    intro s t d b imm x p hr r h hp hd
    exact load_idles hr h (effective_of_reaches hp) hd
  case faults =>
    intro s t d b imm x hr r h
    refine ⟨fun hb => access_faults hr h (effective_malformed (x.reg_lt b) hb), fun hb ho => access_faults hr h (effective_below hb ho),
      fun hb ho hc => ?_, fun c hb ho hf hl => ?_⟩
    · obtain ⟨k, hk⟩ := Int.eq_ofNat_of_zero_le ho
      refine access_faults hr h (effective_outside hb hk fun c hf => ?_)
      have := hc c hf
      omega
    · obtain ⟨k, hk⟩ := Int.eq_ofNat_of_zero_le ho
      rw [hk] at hl
      have hl : k + r.2.1 ≤ c.length := by exact_mod_cast hl
      refine ⟨fun hright => access_faults hr h (effective_noRight hb hk hf hl hright), fun hright hm => access_faults hr h ?_⟩
      rw [hk] at hm
      rw [effective_aligned hb hk hf hl hright, if_pos (by exact_mod_cast hm)]
      rfl
  case frame =>
    intro scratch middle last c h
    cases (commonCaps_frame scratch middle last).symm.trans h
    rfl

end Sys2Proof.Machine
end

section
/-! Branches, jumps, capability windows and special registers (R168, R198 to R201). -/

namespace Sys2Proof.Machine

open Sys2Proof

/-! ### The commands' meanings -/

section
variable (s : State) (t d n off src cd cs a b mask : Nat)

theorem exec_j : exec (.j t off) s = execJ t off s := rfl
theorem exec_jal : exec (.jal t d off) s = execJal t d off s := rfl
theorem exec_jr : exec (.jr t src) s = execJr t src s := rfl
theorem exec_mkca : exec (.mkca t d n src) s = execMkca t d n src s := rfl
theorem exec_capn : exec (.capn t cd cs a b mask) s = execCapn t cd cs a b mask s := rfl
theorem exec_rds : exec (.rds t d src) s = execRds t d src s := rfl

end

/-! ### Branches and jumps (R198) -/

namespace Cond

theorem holds_eq (x y : Word) : eq.holds x.toNat y.toNat = (x == y) := by
  rw [holds, Bool.eq_iff_iff, beq_iff_eq, beq_iff_eq, BitVec.toNat_inj]

theorem holds_ne (x y : Word) : ne.holds x.toNat y.toNat = (x != y) := congrArg Bool.not (holds_eq x y)

theorem holds_lt (x y : Word) : lt.holds x.toNat y.toNat = x.slt y := by rw [holds, signedOf_toNat, signedOf_toNat, BitVec.slt]

theorem holds_ge (x y : Word) : ge.holds x.toNat y.toNat = !x.slt y := by
  rw [holds, signedOf_toNat, signedOf_toNat, BitVec.slt, ← decide_not]
  exact decide_eq_decide.2 not_lt.symm

theorem holds_ltu (x y : Word) : ltu.holds x.toNat y.toNat = x.ult y := rfl

theorem holds_geu (x y : Word) : geu.holds x.toNat y.toNat = !x.ult y := by
  rw [holds, BitVec.ult, ← decide_not]
  exact decide_eq_decide.2 not_lt.symm

end Cond

/-- Each branch is the branch of its condition, which is the row's test of the two words. -/
theorem exec_of_mem_branchRows {t a b off : Nat} {r : Instr × (Word → Word → Bool)} (h : r ∈ branchRows t a b off) :
    ∃ c : Cond, (∀ x y : Word, c.holds x.toNat y.toNat = r.2 x y) ∧ ∀ s, exec r.1 s = s.act fun y => y.branch t c a b off := by
  simp only [branchRows, List.mem_cons, List.not_mem_nil, or_false] at h
  rcases h with rfl | rfl | rfl | rfl | rfl | rfl
  · exact ⟨.eq, Cond.holds_eq, fun _ => rfl⟩
  · exact ⟨.ne, Cond.holds_ne, fun _ => rfl⟩
  · exact ⟨.lt, Cond.holds_lt, fun _ => rfl⟩
  · exact ⟨.ge, Cond.holds_ge, fun _ => rfl⟩
  · exact ⟨.ltu, Cond.holds_ltu, fun _ => rfl⟩
  · exact ⟨.geu, Cond.holds_geu, fun _ => rfl⟩

/-- A target that is no negative index is the sum of the index and the offset. -/
theorem jumpTo_eq {pc off w n : Nat} (h : (pc : Int) + signedOf off w = n) : jumpTo pc off w = n := by
  rw [jumpTo, h]

section
variable {s : State} {t : Nat} {x : Activation} (hr : CanRun s t x)
include hr

theorem branch_retires {a b off : Nat} {r : Instr × (Word → Word → Bool)} (h : r ∈ branchRows t a b off) :
    Retires r.1 s t { x with
      sinsn := x.sinsn + 1
      pc := if r.2 (BitVec.ofNat 64 (x.reg a)) (BitVec.ofNat 64 (x.reg b)) then jumpTo x.pc off 16 else x.pc + 1 } := by
  obtain ⟨c, hc, hi⟩ := exec_of_mem_branchRows h
  rw [← hc, x.toNat_reg, x.toNat_reg]
  exact retires_of_done (hi s) hr rfl rfl

theorem j_retires (off : Nat) : Retires (.j t off) s t { x with sinsn := x.sinsn + 1, pc := jumpTo x.pc off 26 } :=
  retires_of_done (exec_j ..) hr rfl rfl

theorem jal_writes (d off : Nat) : Writes (.jal t d off) s t x d ((x.pc + 1) % 2 ^ 64) (jumpTo x.pc off 21) :=
  writes_of_done (exec_jal ..) hr rfl rfl

theorem jr_retires {src : Nat} (h : x.reg src < x.codeWords) :
    Retires (.jr t src) s t { x with sinsn := x.sinsn + 1, pc := x.reg src } :=
  retires_of_done (exec_jr ..) hr rfl (if_neg (Nat.not_le.2 h))

theorem jr_faults {src : Nat} (h : x.codeWords ≤ x.reg src) : Faults (.jr t src) s t FaultCode.illegal :=
  faults_of_fault (exec_jr ..) hr rfl (if_pos h)

theorem mkca_writes (d : Nat) {n src : Nat} (hn : n < 8) (h : x.reg src < 2 ^ 48) :
    Writes (.mkca t d n src) s t x d (n * 2 ^ 48 + x.reg src) (x.pc + 1) := by
  have hw := writes_of_done (rd := d) (v := n % 8 * 2 ^ 48 + x.reg src) (next := x.pc + 1) (exec_mkca s t d n src) hr rfl
    (if_neg (not_not.2 (Nat.div_eq_of_lt h)))
  rwa [Nat.mod_eq_of_lt hn, Nat.mod_eq_of_lt (by omega)] at hw

theorem mkca_faults (d n : Nat) {src : Nat} (h : 2 ^ 48 ≤ x.reg src) : Faults (.mkca t d n src) s t FaultCode.bounds :=
  faults_of_fault (exec_mkca ..) hr rfl (if_pos (Nat.div_pos h (by decide)).ne')

/-- A part of a window put into a window register; the other window registers keep theirs (R200). -/
theorem capn_retires (cd mask : Nat) {cs a b : Nat} {c : Cap} (hc : find x.caps cs = some c) (h : x.reg a + x.reg b ≤ c.length) :
    Retires (.capn t cd cs a b mask) s t
      { x with caps := put x.caps cd (c.narrow (x.reg a) (x.reg b) mask), pc := x.pc + 1, sinsn := x.sinsn + 1 } :=
  retires_of_done (b := { x with caps := put x.caps cd (c.narrow (x.reg a) (x.reg b) mask) }) (exec_capn ..) hr rfl
    (by simp only [hc, gt_iff_lt, if_neg (Nat.not_lt.2 h)])

theorem capn_faults (cd mask : Nat) {cs a b : Nat} {c : Cap} (hc : find x.caps cs = some c) (h : c.length < x.reg a + x.reg b) :
    Faults (.capn t cd cs a b mask) s t FaultCode.bounds :=
  faults_of_fault (exec_capn ..) hr rfl (by simp only [hc, gt_iff_lt, if_pos h])

theorem rds_writes (d src : Nat) : Writes (.rds t d src) s t x d (s.dev.special t x src % 2 ^ 64) (x.pc + 1) :=
  writes_of_writes (exec_rds ..) hr rfl

end

/-! ### Special registers (R168, R201) -/

/-- Special registers 8 to 15 are the window registers c0 to c7. -/
theorem special_scap (d : Dev) (t : Nat) (x : Activation) (k : Nat) : d.special t x (8 + k) = x.scap k := by
  have h (n : Nat) (hn : n < 8) : 8 + k ≠ n := by omega
  simp only [Dev.special, h 0 (by decide), h 1 (by decide), h 2 (by decide), h 3 (by decide), h 4 (by decide), if_false, Nat.add_sub_cancel_left]

theorem flag_lt (b : Bool) : flag b < 2 := by cases b <;> decide

/-- A number that is the flag of a truth value is 1 where the value is true. -/
theorem beq_one_of_eq_flag {n : Nat} {b : Bool} (h : n = flag b) : (n == 1) = b := by subst h; cases b <;> rfl

theorem Area.space_lt (x : Area) : x.space < 4 := by cases x <;> decide

/-- The fields of a window register as read, for a window shorter than 2^40 bytes (R168). -/
theorem scap_fields {x : Activation} {k : Nat} {c : Cap} (hc : find x.caps k = some c) (hl : c.length < 2 ^ 40) :
    bitsOf (x.scap k) 0 40 = c.length ∧ bitOf (x.scap k) 40 = c.mayRead ∧ bitOf (x.scap k) 41 = c.mayWrite ∧
      bitOf (x.scap k) 42 = c.engSrc ∧ bitOf (x.scap k) 43 = c.engDst ∧ bitsOf (x.scap k) 44 4 = c.area.space ∧ x.scap k < 2 ^ 48 := by
  have hr := flag_lt c.mayRead
  have hw := flag_lt c.mayWrite
  have hs := flag_lt c.engSrc
  have hd := flag_lt c.engDst
  have ha := c.area.space_lt
  simp only [Activation.scap, hc, bitsOf, bitOf]
  exact ⟨by omega, beq_one_of_eq_flag (by omega), beq_one_of_eq_flag (by omega), beq_one_of_eq_flag (by omega),
    beq_one_of_eq_flag (by omega), by omega, by omega⟩

theorem scap_unassigned {x : Activation} {k : Nat} (hc : find x.caps k = none) : x.scap k = 0 := by simp only [Activation.scap, hc]

/-- Settles O25: each instruction retires or faults by one rule, and a window register's fields are read apart. -/
theorem controlFlowAndCapabilities : Obligations.ControlFlowAndCapabilities := by
  unfold Obligations.ControlFlowAndCapabilities
  refine ⟨?branches, fun _ _ _ _ h => jumpTo_eq h, ?jumps, ?mkca, ?capn, ?rds, ?pastCode⟩
  case branches =>
    intro s t a b off x hr r h
    exact branch_retires hr h
  case jumps =>
    intro s t d off src x hr
    exact ⟨j_retires hr off, jal_writes hr d off, jr_retires hr, jr_faults hr⟩
  case mkca =>
    intro s t d n src x hr hn
    exact ⟨mkca_writes hr d hn, mkca_faults hr d n⟩
  case capn =>
    intro s t cd cs a b mask x c hr hc
    refine ⟨fun h => ⟨put x.caps cd (c.narrow (x.reg a) (x.reg b) mask), c.narrow (x.reg a) (x.reg b) mask, find_put_self .., ?_⟩,
      capn_faults hr cd mask hc⟩
    exact ⟨fun k hk => find_put_ne _ _ hk, rfl, rfl, rfl, rfl, rfl, rfl, rfl, capn_retires hr cd mask hc h⟩
  case rds =>
    intro s t d src x hr
    refine ⟨rds_writes hr d src, rfl, rfl, rfl, rfl, fun _ => rfl, fun k _ hc => ?_, fun k c _ hc hl => ?_⟩
    · rw [special_scap, scap_unassigned hc]
    · rw [special_scap]; exact scap_fields hc hl
  case pastCode =>
    intro s t d a b off x hx ha hp
    refine ⟨fun r h => ?_, faults_of_past_code (exec_j ..) hx ha hp, faults_of_past_code (exec_jal ..) hx ha hp,
      faults_of_past_code (exec_jr ..) hx ha hp⟩
    obtain ⟨c, -, hi⟩ := exec_of_mem_branchRows h
    exact faults_of_past_code (hi s) hx ha hp

end Sys2Proof.Machine
end

section
/-! `wait`, `post`, `halt` and `note` (R173, R210, R212 to R214), and the faults ILLEGAL, BUDGET and TICKET (R176, R190). -/

namespace Sys2Proof.Machine

open Sys2Proof

/-! ### The commands' meanings -/

section
variable (s : State) (t d a b g now : Nat)

theorem exec_add : exec (.add t d a b) s = execAdd t d a b s := rfl
theorem exec_wait : exec (.wait t d g) s = execWait t d g s := rfl
theorem exec_post : exec (.post t g now) s = execPost t g now s := rfl
theorem exec_halt : exec (.halt t now) s = execHalt t now s := rfl
theorem exec_note : exec (.note t g) s = execNote t g s := rfl
theorem exec_rdl : exec (.rdl t d g) s = execRdl t d g s := rfl

end

/-! ### `wait` (R173) -/

section
variable {s : State} {t d g : Nat} {x : Activation} (hr : CanRun s t x)
include hr

theorem wait_idles {k : Ticket} (hk : find x.tickets (x.reg g) = some k) (hv : k.result = none) : Idles (.wait t d g) s :=
  idles_of_stall (exec_wait ..) hr rfl (by simp only [hk, hv])

theorem wait_faults (hk : find x.tickets (x.reg g) = none) : Faults (.wait t d g) s t FaultCode.ticket :=
  faults_of_fault (exec_wait ..) hr rfl (by simp only [hk])

/-- A completed ticket gives its result to gd and is free again. -/
theorem wait_retires {k : Ticket} {v : Nat} (hk : find x.tickets (x.reg g) = some k) (hv : k.result = some v) :
    ∃ r : Table Word, (∀ n, ({ x with regs := r } : Activation).reg n = if n = d ∧ d ≠ 0 then v % 2 ^ 64 else x.reg n) ∧
      Retires (.wait t d g) s t { x with tickets := drop x.tickets (x.reg g), regs := r, pc := x.pc + 1, sinsn := x.sinsn + 1 } := by
  have h := retires_of_done (b := ({ x with tickets := drop x.tickets (x.reg g) } : Activation).setReg d v) (next := x.pc + 1)
    (exec_wait s t d g) hr rfl (by simp only [hk, hv])
  rw [Activation.setReg_eq] at h
  exact ⟨_, fun n => Activation.reg_setReg { x with tickets := drop x.tickets (x.reg g) } d v n, h⟩

end

/-! ### The end of an activation's thread (R178, R469) -/

theorem writeTag_only (d : Dev) (b : Bytes) :
    d.writeTag b = { d with regs := (d.writeTag b).regs, memory := (d.writeTag b).memory, counters := (d.writeTag b).counters } := by
  unfold Dev.writeTag
  dsimp only
  split
  · rfl
  · split
    · rfl
    · split <;> rfl

theorem tagTicket_only (d : Dev) (t k st c : Nat) : d.tagTicket t k st c =
    { d with regs := (d.tagTicket t k st c).regs, memory := (d.tagTicket t k st c).memory, counters := (d.tagTicket t k st c).counters } := by
  unfold Dev.tagTicket
  dsimp only
  split
  · split
    · split
      · rw [writeTag_only]; rfl
      · rfl
    · rfl
  · rfl

/-- Abandoning a tag touches the registers, the tag ring and the counters only. -/
theorem tagAbandon_only (d : Dev) (t : Nat) : d.tagAbandon t =
    { d with regs := (d.tagAbandon t).regs, memory := (d.tagAbandon t).memory, counters := (d.tagAbandon t).counters } := by
  unfold Dev.tagAbandon
  split
  · split
    · exact tagTicket_only ..
    · rfl
  · rfl

/-- A thread given up: its activation is gone, with what tagging and the cipher engine kept for it. -/
theorem dropThread_only (d : Dev) (t : Nat) : d.dropThread t = { d with
    regs := (d.tagAbandon t).regs, memory := (d.tagAbandon t).memory, counters := (d.tagAbandon t).counters
    cipher := (d.dropThread t).cipher, chanters := { d.chanters with threads := drop d.chanters.threads t } } := by
  unfold Dev.dropThread
  rw [tagAbandon_only]
  rfl

/-! ### `post` and `halt` (R210, R212, R213) -/

/-- An activation whose tickets have all completed has none outstanding. -/
theorem none_outstanding {x : Activation} (h : ∀ k ∈ x.tickets, k.2.result.isSome = true) :
    (x.tickets.any fun k => k.2.result.isNone) = false := by
  rw [List.any_eq_false]
  intro k hk
  simp [Option.isNone_iff_eq_none, ← Option.isSome_iff_ne_none, h k hk]

/-- With nothing outstanding and nothing to seal, what follows the seal follows at once (R174). -/
theorem withSeal_nothing {d : Dev} {t : Nat} {x : Activation} (k : Dev → Ran) (ht : ∀ k ∈ x.tickets, k.2.result.isSome = true)
    (hs : x.sealed = false) (hp : x.pendings = []) : d.withSeal t x k = k d := by
  simp [Dev.withSeal, none_outstanding ht, hs, hp]

theorem postCompletion_command (d : Dev) {x : Activation} {seq : Nat} (hw : x.work = .command seq) (g : Nat) :
    d.postCompletion x g = d.complete seq (x.reg g % 256) (x.reg (g + 1)) := by simp only [Dev.postCompletion, hw]

section
variable {i : Instr} {s : State} {t now : Nat} {g : Gullot} {f : Dev → Activation → Ran} {x : Activation}
  (hi : exec i s = s.act fun d => (d.clock now).execute t g (f d)) (hr : CanRun s t x) (hk : g.allowedIn x.work.kind = true)
include hi hr hk

/-! An instruction that notes its instant before it is carried out. -/

theorem clocked_fault {c : Nat} (hf : f s.dev x = .fault c) :
    Becomes i s (((s.dev.clock now).tagIssue t x.progId x.work.kind).faultThread t c) := by
  obtain ⟨hx, ha, hp, -⟩ := hr
  exact hi.trans (by rw [State.act, execute_fault (d := s.dev.clock now) hx ha hp hk hf])

theorem clocked_done {e : Dev} {b : Activation} {next : Nat} (hf : f s.dev x = .done e b next) :
    Becomes i s ((e.onChanters fun c => { c with threads := put c.threads t { b with pc := next, sinsn := b.sinsn + 1 } }).tagIssue
      t x.progId x.work.kind) := by
  obtain ⟨hx, ha, hp, hs⟩ := hr
  exact hi.trans (by rw [State.act, execute_done (d := s.dev.clock now) hx ha hp hk hs hf])

theorem clocked_ended {e : Dev} (hf : f s.dev x = .ended e) : Becomes i s (e.tagIssue t x.progId x.work.kind) := by
  obtain ⟨hx, ha, hp, hs⟩ := hr
  exact hi.trans (by rw [State.act, execute_ended (d := s.dev.clock now) hx ha hp hk hs hf])

end

section
variable {s : State} {t g now : Nat} {x : Activation} (hr : CanRun s t x)
include hr

/-- A first `post` of a command activation with nothing to seal completes the command (R210). -/
theorem post_completes {seq : Nat} (hw : x.work = .command seq) (hp : x.posted = false) (hs : x.sealed = false) (hn : x.pendings = [])
    (ht : ∀ k ∈ x.tickets, k.2.result.isSome = true) :
    Becomes (.post t g now) s
      (((((s.dev.clock now).complete seq (x.reg g % 256) (x.reg (g + 1))).settle.onChanters fun c =>
        { c with threads := put c.threads t { x with posted := true, pc := x.pc + 1, sinsn := x.sinsn + 1 } }).tagIssue
          t x.progId x.work.kind)) := by
  have hb : (x.posted || decide (x.work.kind = 2)) = false := by rw [hp, hw]; rfl
  have hx : (find (s.dev.clock now).chanters.threads t).getD x = x := congrArg (Option.getD · x) hr.1
  have h := clocked_done (e := ((s.dev.clock now).complete seq (x.reg g % 256) (x.reg (g + 1))).settle)
    (b := { x with posted := true, sealed := false }) (next := x.pc + 1) (exec_post s t g now) hr (Gullot.allowedIn_post ..)
    (by simp only [hb, Bool.false_eq_true, if_false, withSeal_nothing _ ht hs hn, hx, postCompletion_command _ hw])
  rwa [← hs] at h

theorem post_faults (h : x.posted = true ∨ x.work.kind = 2) :
    Becomes (.post t g now) s (((s.dev.clock now).tagIssue t x.progId x.work.kind).faultThread t FaultCode.postTwice) :=
  clocked_fault (exec_post ..) hr (Gullot.allowedIn_post ..) (if_pos (by simpa using h))

/-- `halt` in kinds 0 and 1 before a post raises NO_POST (R212). -/
theorem halt_faults (hw : x.work.kind ≤ 1) (hp : x.posted = false) :
    Becomes (.halt t now) s (((s.dev.clock now).tagIssue t x.progId x.work.kind).faultThread t FaultCode.noPost) := by
  refine clocked_fault (exec_halt ..) hr (Gullot.allowedIn_of_kinds rfl _) ?_
  cases h : x.work with
  | command q => simp [hp]
  | commit w b => simp [hp]
  | early w b i => rw [h] at hw; exact absurd hw (by simp [Work.kind])

/-- `halt` in kinds 0 and 1 after the post, its tickets done, gives the thread up (R212). -/
theorem halt_ends (hw : x.work.kind ≤ 1) (hp : x.posted = true) (ht : ∀ k ∈ x.tickets, k.2.result.isSome = true) :
    Becomes (.halt t now) s (((s.dev.clock now).dropThread t).tagIssue t x.progId x.work.kind) := by
  refine clocked_ended (exec_halt ..) hr (Gullot.allowedIn_of_kinds rfl _) ?_
  cases h : x.work with
  | command q => simp [hp, none_outstanding ht]
  | commit w b => simp [hp, none_outstanding ht]
  | early w b i => rw [h] at hw; exact absurd hw (by simp [Work.kind])

end

/-! ### `note` (R214) -/

/-- The chanters with the notes of the present second: none yet in a new one. -/
def Dev.noteChanters (d : Dev) : Chanters :=
  if d.chanters.noteSecond = d.now / sec then d.chanters else { d.chanters with noteSecond := d.now / sec, notes := 0 }

/-- The step of `note` that starts a new second's count. -/
theorem noteSecond_step (d : Dev) :
    (if d.chanters.noteSecond = d.now / sec then d else d.onChanters fun c => { c with noteSecond := d.now / sec, notes := 0 }) =
      { d with chanters := d.noteChanters } := by
  unfold Dev.noteChanters
  split <;> rfl

theorem noteChanters_same {d : Dev} (h : d.chanters.noteSecond = d.now / sec) : d.noteChanters = d.chanters := if_pos h

@[simp] theorem noteChanters_threads (d : Dev) : d.noteChanters.threads = d.chanters.threads := by
  unfold Dev.noteChanters; split <;> rfl

@[simp] theorem noteChanters_notesDropped (d : Dev) : d.noteChanters.notesDropped = d.chanters.notesDropped := by
  unfold Dev.noteChanters; split <;> rfl

/-- Fewer than 1,000 notes stand in the present second if the second is new or had fewer. -/
theorem noteChanters_notes_lt {d : Dev} (h : d.chanters.noteSecond = d.now / sec → d.chanters.notes < 1000) :
    d.noteChanters.notes < 1000 := by
  unfold Dev.noteChanters
  split
  · rename_i hs; exact h hs
  · exact Nat.succ_pos 999

/-- The module with an activation's PROGRAM_NOTE posted. -/
def Dev.programNote (d : Dev) (x : Activation) (g : Nat) : Dev :=
  ({ d with chanters := d.noteChanters } : Dev).post Cls.control 0x22 x.unit
    [b4 x.progId, b8 (x.reg g), b4 (x.reg (g + 1)), b4 d.chanters.notesDropped]

/-- The note stands newest with every client. -/
theorem programNote_newest (d : Dev) (x : Activation) (g : Nat) : NewestEvent d (d.programNote x g) Cls.control 0x22 x.unit
    [b4 x.progId, b8 (x.reg g), b4 (x.reg (g + 1)), b4 d.chanters.notesDropped] :=
  fun c hc hh => post_newest { d with chanters := d.noteChanters } _ _ _ _ c hc hh

section
variable {s : State} {t g : Nat} {x : Activation} (hr : CanRun s t x)
include hr

/-- A further `note` of an activation retires with no effect. -/
theorem note_again (h : x.noted = true) :
    Runs (.note t g) s fun d => find d.chanters.threads t = some { x with pc := x.pc + 1, sinsn := x.sinsn + 1 } ∧ d.events = s.dev.events := by
  obtain ⟨d, hd, u, rfl⟩ := runs_of_done (e := { s.dev with chanters := s.dev.noteChanters }) (b := x) (next := x.pc + 1)
    (exec_note s t g) hr rfl (by simp only [noteSecond_step, h, if_true])
  exact ⟨_, hd, find_put_self .., rfl⟩

/-- The 1,001st note of a second is dropped and counted. -/
theorem note_drops (h : x.noted = false) (hsec : s.dev.chanters.noteSecond = s.dev.now / sec) (hn : 1000 ≤ s.dev.chanters.notes) :
    Runs (.note t g) s fun d =>
      find d.chanters.threads t = some { x with pc := x.pc + 1, sinsn := x.sinsn + 1 } ∧ d.events = s.dev.events ∧
      d.chanters.notes = s.dev.chanters.notes ∧ d.chanters.notesDropped = min (2 ^ 32 - 1) (s.dev.chanters.notesDropped + 1) := by
  obtain ⟨d, hd, u, rfl⟩ := runs_of_done (e := s.dev.onChanters fun c => { c with notesDropped := satAdd max32 c.notesDropped 1 }) (b := x)
    (next := x.pc + 1) (exec_note s t g) hr rfl
    (by simp only [noteSecond_step, noteChanters_same hsec, h, Bool.false_eq_true, if_false, ge_iff_le, if_pos hn])
  exact ⟨_, hd, find_put_self .., rfl, rfl, rfl⟩

/-- A first note within the limit is posted as PROGRAM_NOTE with the notes dropped since the last one. -/
theorem note_posts (h : x.noted = false) (hn : s.dev.chanters.noteSecond = s.dev.now / sec → s.dev.chanters.notes < 1000) :
    Runs (.note t g) s fun d =>
      find d.chanters.threads t = some { x with noted := true, pc := x.pc + 1, sinsn := x.sinsn + 1 } ∧ d.chanters.notesDropped = 0 ∧
      NewestEvent s.dev d Cls.control 0x22 x.unit [b4 x.progId, b8 (x.reg g), b4 (x.reg (g + 1)), b4 s.dev.chanters.notesDropped] := by
  have hl := Nat.not_le.2 (noteChanters_notes_lt hn)
  obtain ⟨d, hd, u, rfl⟩ := runs_of_done (e := (s.dev.programNote x g).onChanters fun c => { c with notes := c.notes + 1, notesDropped := 0 })
    (b := { x with noted := true }) (next := x.pc + 1) (exec_note s t g) hr rfl
    (by simp only [noteSecond_step, h, Bool.false_eq_true, if_false, ge_iff_le, if_neg hl, noteChanters_notesDropped]; rfl)
  exact ⟨_, hd, find_put_self .., rfl, programNote_newest s.dev x g⟩

end

/-! ### Faults before an instruction's own effect (R176, R189, R190) -/

/-- `rdl` is listed for command activations only: in a window activation it raises ILLEGAL. -/
theorem rdl_illegal {s : State} {t d g : Nat} {x : Activation} (hx : find s.dev.chanters.threads t = some x) (ha : x.awaiting = 0)
    (hk : x.work.kind ≠ 0) :
    Becomes (.rdl t d g) s ((s.dev.tagIssue t x.progId x.work.kind).faultThread t FaultCode.illegal).serveAll := by
  have hi : (Gullot.engine .rdl d g).allowedIn x.work.kind = false := by
    cases hw : x.work with
    | command q => exact absurd (by rw [hw]; rfl) hk
    | commit w b => simp [Gullot.allowedIn, Gullot.kinds, bitOf, Work.kind]
    | early w b i => simp [Gullot.allowedIn, Gullot.kinds, bitOf, Work.kind]
  rw [Becomes, exec_rdl, execRdl, State.act, Dev.issueEngine, execute_illegal hx ha (.inr hi)]

/-- Settles O28: each of the four instructions has one lemma for each of its outcomes. -/
theorem waitPostHaltNote : Obligations.WaitPostHaltNote := by
  unfold Obligations.WaitPostHaltNote
  refine ⟨?wait, fun s t d g x hr => wait_faults hr, ?post, ?postTwice, ?halt, ?notePosts, ?noteDrops, fun s t g x hr => note_again hr, ?faults, ?kind⟩
  case wait =>
    intro s t d g x k hr hk
    exact ⟨wait_idles hr hk, fun v hv => wait_retires hr hk hv⟩
  case post =>
    intro s t g now seq x hr hw hp hs hn ht
    refine ⟨_, post_completes hr hw hp hs hn ht, ?_, _, rfl, ?_⟩
    · rw [Dev.tagIssue_chanters]; exact find_put_self ..
    · rw [tagIssue_only]; rfl
  case postTwice =>
    intro s t g now x hr h
    exact ⟨_, tagIssue_only .., post_faults hr h⟩
  case halt =>
    intro s t now x hr hw
    refine ⟨fun hp => ⟨_, tagIssue_only .., halt_faults hr hw hp⟩, fun hp ht => ⟨_, halt_ends hr hw hp ht, ?_⟩⟩
    rw [tagIssue_only, dropThread_only]
    exact ⟨find_drop_self .., fun u hu => (find_drop ..).trans (if_neg hu), rfl, rfl, rfl⟩
  case notePosts =>
    intro s t g x hr h hn
    exact note_posts hr h hn
  case noteDrops =>
    intro s t g x hr h hsec hn
    exact note_drops hr h hsec hn
  case faults =>
    intro s t d a b x hx ha
    exact ⟨faults_of_past_code (exec_add ..) hx ha, fun hp hs =>
      faults_of_budget (exec_add ..) hx ha hp (Gullot.allowedIn_of_kinds rfl _) rfl hs⟩
  case kind =>
    intro s t d g x hx ha hk
    exact ⟨_, tagIssue_only .., rdl_illegal hx ha hk⟩

end Sys2Proof.Machine
end

section
/-! The counter collector (R464 to R468): what a freeze, a resume, an arming, a wrap and a snapshot each do, said once, and the
statement about them. -/

namespace Sys2Proof.Machine

open Sys2Proof RegisterMap

/-! ### Commands, registers left alone and bit fields -/

/-- A command that changes the module by a function runs with what holds of the function's result. -/
theorem runs_of_act {i : Instr} {s : State} {f : Dev → Dev} {p : Dev → Prop} (hi : exec i s = s.act f) (h : p (f s.dev)) : Runs i s p :=
  ⟨_, hi, h⟩

theorem becomes_of_act {i : Instr} {s : State} {f : Dev → Dev} {d : Dev} (hi : exec i s = s.act f) (h : f s.dev = d) : Becomes i s d := by
  rw [Becomes, hi, State.act, h]

/-- A command idles where its function changes nothing. -/
theorem idles_of_act {i : Instr} {s : State} {f : Dev → Dev} (hi : exec i s = s.act f) (h : f s.dev = s.dev) : Idles i s :=
  becomes_of_act hi h

theorem OnlyEvents.counters {a b : Dev} (h : OnlyEvents a b) : b.counters = a.counters :=
  (congrArg Dev.counters h.1 :)

theorem RegsKept.trans {a b c : Dev} {l : List Nat} (h : RegsKept a b l) (k : RegsKept b c l) : RegsKept a c l :=
  fun x hx => (k x hx).trans (h x hx)

theorem RegsKept.mono {a b : Dev} {l m : List Nat} (h : RegsKept a b l) (hs : l ⊆ m) : RegsKept a b m :=
  fun x hx => h x fun hl => hx (hs hl)

/-- A register placed in force leaves every other one. -/
theorem regsKept_setReg (d : Dev) (a v : Nat) : RegsKept d (d.setReg a v) [a] :=
  fun x hx => Dev.reg_setReg_ne d a v x (by simpa using hx)

theorem regsKept_setField (d : Dev) (a lo w v : Nat) : RegsKept d (d.setField a lo w v) [a] := regsKept_setReg d a _

/-- A field placed in force reads back. -/
theorem Dev.field_setField_self (d : Dev) (a lo w v : Nat) : (d.setField a lo w v).field a lo w = v % 2 ^ w := by
  rw [Dev.field, Dev.reg_setField, if_pos rfl, bitsOf_withBits]

/-- Replacing a field keeps the field that begins where it ends. -/
theorem bitsOf_withBits_above (v lo w x n : Nat) : bitsOf (withBits v lo w x) (lo + w) n = bitsOf v (lo + w) n := by
  rw [bitsOf, withBits_div, bitsOf]

/-- A field of one bit holds 0 or 1. -/
theorem Dev.field_bit (d : Dev) (a lo : Nat) : d.field a lo 1 = 0 ∨ d.field a lo 1 = 1 := Nat.mod_two_eq_zero_or_one _

/-! ### Latched totals (R466) -/

/-- One total latched in a table, where it is not 0. -/
def latch (total : Nat → Nat) (t : Table Nat) (a : Nat) : Table Nat := if total a = 0 then t else put t a (total a)

theorem find_latch_self (total : Nat → Nat) (t : Table Nat) (a : Nat) (h : find t a = none ∨ (find t a).getD 0 = total a) :
    (find (latch total t a) a).getD 0 = total a := by
  unfold latch
  split
  · next h0 => rcases h with h | h <;> simp [h, h0]
  · simp

theorem find_latch_ne (total : Nat → Nat) (t : Table Nat) {a x : Nat} (h : a ≠ x) : find (latch total t x) a = find t a := by
  unfold latch
  split
  · rfl
  · exact find_put_ne _ _ h

/-- Latching a list of totals makes each of them read as it ran; one that the table held already stays. -/
theorem find_foldl_latch (total : Nat → Nat) (a : Nat) (l : List Nat) : ∀ t : Table Nat,
    (a ∈ l ∧ find t a = none) ∨ (find t a).getD 0 = total a → (find (l.foldl (latch total) t) a).getD 0 = total a := by
  induction l with
  | nil => intro t h; simpa using h
  | cons x l ih =>
    intro t h
    refine ih _ ?_
    by_cases e : a = x
    · subst e
      exact .inr (find_latch_self total t a (h.imp_left And.right))
    · rw [find_latch_ne total t e]
      exact h.imp_left fun ⟨hm, hn⟩ => ⟨(List.mem_cons.1 hm).resolve_left e, hn⟩

/-- Every total stands below the collector's block. -/
theorem totalRegisters_lt {a : Nat} (h : a ∈ totalRegisters) : a < 0xD00000 := by
  simp only [totalRegisters, List.mem_append, List.mem_cons, List.not_mem_nil, or_false, List.mem_flatten, List.mem_map, List.mem_range,
    exists_exists_and_eq_and, setAt, cpe, pwr, hpc, str] at h
  omega

/-- A total runs on by its register, the clock and its set. -/
theorem runningTotal_congr {a b : Dev} {x : Nat} (hn : b.now = a.now) (hs : b.stripes = a.stripes) (hr : b.reg x = a.reg x) :
    b.runningTotal x = a.runningTotal x := by
  simp only [Dev.runningTotal, hn, hs, hr]

/-! ### Freeze and resume (R465) -/

section
variable {d : Dev}

theorem freeze_of_frozen (h : d.counters.frozen = true) (k : Nat) : d.freeze k = d := if_pos h

/-- A freeze of counters that run: the totals are latched, the bit is set, and the event is posted. -/
theorem freeze_of_running (h : d.counters.frozen = false) (k : Nat) : d.freeze k =
    ((d.onCounters fun c => { c with
      frozen := true, frozenBreath := d.breath, latched := totalRegisters.foldl (latch d.runningTotal) [] }).setField 0xD00000 0 1 1).post
        Cls.control 0x91 0 [b1 k, b8 d.breath] :=
  if_neg (by simp [h])

variable (h : d.counters.frozen = false) (k : Nat)
include h

theorem freeze_counters : (d.freeze k).counters = { d.counters with
    frozen := true, frozenBreath := d.breath, latched := totalRegisters.foldl (latch d.runningTotal) [] } := by
  rw [freeze_of_running h]; exact (post_only ..).counters

theorem freeze_ctl : (d.freeze k).reg 0xD00000 = withBits (d.reg 0xD00000) 0 1 1 := by
  rw [freeze_of_running h, post_reg _ _ _ _ _ _ (by decide), Dev.reg_setField, if_pos rfl, Dev.onCounters_reg]

theorem freeze_regsKept : RegsKept d (d.freeze k) [0xD00000, 0x318] := by
  rw [freeze_of_running h]
  exact (RegsKept.mono (regsKept_setField (d.onCounters _) _ _ _ _) (by simp)).trans (RegsKept.mono (post_only ..).2 (by simp))

theorem freeze_newest : NewestEvent d (d.freeze k) Cls.control 0x91 0 [b1 k, b8 d.breath] := by
  rw [freeze_of_running h]; exact fun c hc _ => post_newest _ _ _ _ _ c hc rfl

/-- A freeze latches every total at what it ran to. -/
theorem freeze_totalRead {a : Nat} (ha : a ∈ totalRegisters) : (d.freeze k).totalRead a = d.runningTotal a := by
  rw [Dev.totalRead, freeze_counters h, if_pos rfl]
  dsimp only
  exact find_foldl_latch d.runningTotal a totalRegisters [] (.inl ⟨ha, find_nil a⟩)

end

/-- After a resume every total reads as it runs. -/
theorem resume_totalRead (d : Dev) {a : Nat} (ha : a ∈ totalRegisters) : d.resume.totalRead a = d.runningTotal a :=
  runningTotal_congr (a := d) rfl rfl (Dev.reg_setReg_ne _ _ _ _ (totalRegisters_lt ha).ne)

/-! ### An edge (R465) -/

theorem meets_none (edge : Nat) : meets none edge = false := rfl

theorem meets_some (t edge : Nat) : meets (some t) edge = decide (t + 2000000 ≤ edge) := rfl

/-- An edge at which no arming counts leaves the counters. -/
theorem edgeFreeze_of_unmet {d : Dev} {edge : Nat} (hf : meets d.counters.freezeArm edge = false)
    (hr : meets d.counters.resumeArm edge = false) : d.edgeFreeze edge = d := by
  simp [Dev.edgeFreeze, hf, hr]

/-- An armed freeze taken back: FREEZE_EDGE reads 0. -/
def Dev.disarmFreeze (d : Dev) : Dev := (d.onCounters fun c => { c with freezeArm := none }).setField 0xD00000 1 1 0

/-- An edge that meets an armed freeze, no resume armed, clears the arming and freezes. -/
theorem edgeFreeze_of_met {d : Dev} {edge : Nat} (hf : meets d.counters.freezeArm edge = true) (hr : d.counters.resumeArm = none)
    (h : d.counters.frozen = false) : d.edgeFreeze edge = d.disarmFreeze.freeze 1 := by
  have hm : meets (d.disarmFreeze.freeze 1).counters.resumeArm edge = false := by
    rw [freeze_counters (d := d.disarmFreeze) h]
    exact congrArg (meets · edge) hr
  rw [Dev.edgeFreeze, if_pos hf]
  exact if_neg (Bool.eq_false_iff.1 hm)

/-! ### Counter values and overflow bits (R460, R464, R468) -/

theorem valAt_eq (n : Nat) : valAt n = 0xD00108 + 16 * n := by rw [valAt, cnt]; omega

/-- Clearing some counters zeroes their values and leaves every other register. -/
theorem reg_clearValues (x : Nat) (l : List Nat) : ∀ d : Dev,
    (l.foldl (fun (d : Dev) c => d.setReg (valAt c) 0) d).reg x = if x ∈ l.map valAt then 0 else d.reg x := by
  induction l with
  | nil => intro d; rfl
  | cons c l ih =>
    intro d
    rw [List.foldl_cons, ih, Dev.reg_setReg]
    by_cases e : x = valAt c <;> simp [e]

/-- Clearing some counters changes registers only. -/
theorem clearValues_only (l : List Nat) : ∀ d : Dev,
    ∃ r, l.foldl (fun (d : Dev) c => d.setReg (valAt c) 0) d = { d with regs := r } := by
  induction l with
  | nil => exact fun d => ⟨d.regs, rfl⟩
  | cons c l ih =>
    intro d
    obtain ⟨r, hr⟩ := ih (d.setReg (valAt c) 0)
    exact ⟨r, hr⟩

theorem clearCounters_only (d : Dev) : d.clearCounters = { d with regs := d.clearCounters.regs } := by
  obtain ⟨r, hr⟩ := clearValues_only (List.range 96) d
  rw [Dev.clearCounters, hr]; rfl

/-- CLEAR_ALL zeroes the two overflow words and every counter, and leaves every other register. -/
theorem reg_clearCounters (d : Dev) (x : Nat) : d.clearCounters.reg x =
    if x = 0xD00048 ∨ x = 0xD00040 ∨ x ∈ (List.range 96).map valAt then 0 else d.reg x := by
  rw [Dev.clearCounters, Dev.reg_setReg, Dev.reg_setReg, reg_clearValues, cnt]
  by_cases h1 : x = 0xD00048
  · simp [h1]
  · by_cases h2 : x = 0xD00040 <;> simp [h1, h2]

section
variable {d : Dev} {n : Nat}

/-- A counter that wraps with its overflow bit set already changes nothing more. -/
theorem wrapped_of_set (h : d.field (0xD00040 + 8 * (n / 64)) (n % 64) 1 = 1) : d.wrapped n = d := if_pos h

/-- A counter that wraps with its overflow bit 0 sets the bit and posts one event. -/
theorem wrapped_of_clear (h : d.field (0xD00040 + 8 * (n / 64)) (n % 64) 1 = 0) : d.wrapped n =
    (d.setField (0xD00040 + 8 * (n / 64)) (n % 64) 1 1).post Cls.control 0x90 n [b8 d.breath] :=
  if_neg (by rw [show d.field (cnt + 0x40 + 8 * (n / 64)) (n % 64) 1 = 0 from h]; decide)

theorem wrapped_regsKept (d : Dev) (n : Nat) : RegsKept d (d.wrapped n) [0xD00040 + 8 * (n / 64), 0x318] := by
  rcases d.field_bit (0xD00040 + 8 * (n / 64)) (n % 64) with h | h
  · rw [wrapped_of_clear h]
    exact (RegsKept.mono (regsKept_setField _ _ _ _ _) (by simp)).trans (RegsKept.mono (post_only ..).2 (by simp))
  · rw [wrapped_of_set h]
    exact fun _ _ => rfl

/-- After a wrap the overflow bit is set. -/
theorem wrapped_field (d : Dev) (n : Nat) : (d.wrapped n).field (0xD00040 + 8 * (n / 64)) (n % 64) 1 = 1 := by
  rcases d.field_bit (0xD00040 + 8 * (n / 64)) (n % 64) with h | h
  · rw [wrapped_of_clear h, Dev.field, post_reg _ _ _ _ _ _ (by omega)]
    exact Dev.field_setField_self ..
  · rw [wrapped_of_set h, h]

end

/-! ### Snapshots (R467) -/

/-- Writing bytes from an address on leaves every byte before it. -/
theorem readByte_writeBytes_lt (b : Bytes) : ∀ (m : List Host.Cell) (a : Nat) {x : Nat}, x < a →
    readByte (writeBytes m a b) x = readByte m x := by
  induction b with
  | nil => intros; rfl
  | cons y b ih =>
    intro m a x h
    rw [writeBytes, ih _ _ (Nat.lt_succ_of_lt h), readByte_writeByte, if_neg h.ne]

/-- Bytes written read back. -/
theorem readBytes_writeBytes {n : Nat} (b : Bytes) (h : b.length = n) : ∀ (m : List Host.Cell) (a : Nat),
    readBytes (writeBytes m a b) a n = b := by
  subst h
  induction b with
  | nil => intros; rfl
  | cons y b ih =>
    intro m a
    rw [List.length_cons, readBytes, writeBytes, ih, readByte_writeBytes_lt b _ _ (Nat.lt_succ_self a), readByte_writeByte, if_pos rfl]

/-- Bytes written into a region change that region's memory only. -/
theorem find_writeRegion (d : Dev) (i off : Nat) (b : Bytes) (j : Nat) : find (d.writeRegion i off b).memory.regions j =
    if j = i then (find d.memory.regions i).map fun r => { r with mem := writeBytes r.mem off b } else find d.memory.regions j :=
  find_alter _ i j _

/-- A snapshot record has 832 bytes. -/
theorem length_snapshotRecord (d : Dev) (frozen : Bool) : (d.snapshotRecord frozen).length = 832 := by
  simp [Dev.snapshotRecord, zeros, List.length_flatten, Function.comp_def]

/-- A key that names a current buffer region names one that the table holds, its index not 0. -/
theorem find_of_bufferRegion {d : Dev} {key i : Nat} {r : Region} (h : d.bufferRegion key = some (i, r)) :
    256 ≤ key ∧ find d.memory.regions i = some r := by
  unfold Dev.bufferRegion at h
  dsimp only at h
  split at h
  · next q hq =>
    split at h
    · split at h
      · next hc =>
        obtain ⟨rfl, rfl⟩ := Prod.mk.inj (Option.some.inj h)
        exact ⟨by simp only [Bool.and_eq_true, decide_eq_true_eq] at hc; omega, hq⟩
      · cases h
    · cases h
  · cases h

section
variable {d : Dev} (frozen : Bool)

theorem key_lt_iff (k : Nat) : k / 256 = 0 ↔ k < 256 := Nat.div_eq_zero_iff_lt (by decide)

/-- No snapshot is due where SNAP_DIV is 0 or does not divide the breath, or the ring's key names no region. -/
theorem snapshot_of_notDue
    (h : d.field 0xD00000 16 16 = 0 ∨ d.breath % d.field 0xD00000 16 16 ≠ 0 ∨ d.reg 0xD00010 < 256) : d.snapshot frozen = d :=
  if_pos <| by
    simp only [Bool.or_eq_true, decide_eq_true_eq, bne_iff_ne, key_lt_iff, or_assoc]
    exact h

variable (hdiv : d.field 0xD00000 16 16 ≠ 0) (hb : d.breath % d.field 0xD00000 16 16 = 0)
include hdiv hb

/-- A snapshot that is due while its key names no current ring is dropped and counted. -/
theorem snapshot_of_noRing (hk : 256 ≤ d.reg 0xD00010) (hr : d.bufferRegion (d.reg 0xD00010) = none) : d.snapshot frozen =
    (d.count 0xD00018).onCounters fun c => { c with secondDrops := (c.secondDrops.1 + 1, c.secondDrops.2) } := by
  simp [Dev.snapshot, cnt, hdiv, hb, Nat.not_lt.2 hk, hr]

/-- A snapshot that is due goes to the next record of its ring. -/
theorem snapshot_of_ring {i : Nat} {r : Region} (hr : d.bufferRegion (d.reg 0xD00010) = some (i, r)) (hl : 832 ≤ r.length)
    (hw : d.counters.snapWritten < 100000) : d.snapshot frozen =
    (d.writeRegion i (d.counters.snapIndex % (r.length / 832) * 832) (d.snapshotRecord frozen)).onCounters fun c =>
      { c with snapIndex := (d.counters.snapIndex + 1) % (r.length / 832), snapWritten := c.snapWritten + 1 } := by
  obtain ⟨hk, -⟩ := find_of_bufferRegion hr
  have hc : r.length / 832 ≠ 0 := (Nat.div_pos hl (by decide)).ne'
  simp [Dev.snapshot, cnt, hdiv, hb, Nat.not_lt.2 hk, hr, hc, Nat.not_le.2 hw]

end

/-! ### The rows of the collector -/

section
variable {s : State} {client n : Nat}

theorem exec_cntFreeze : exec (.cntFreeze client) s = s.act fun d => d.freeze 0 := rfl
theorem exec_cntResume : exec (.cntResume client) s = s.act Dev.resume := rfl
theorem exec_freezeEdge {now : Nat} : exec (.freezeEdge client now) s = s.act fun d => (d.clock now).armFreeze now := rfl
theorem exec_resumeEdge {now : Nat} : exec (.resumeEdge client now) s = s.act fun d => (d.clock now).armResume now := rfl
theorem exec_clearAll : exec (.clearAll client) s = s.act Dev.clearCounters := rfl

theorem exec_cntValWrite {v : Nat} : exec (.cntValWrite client n v) s =
    s.act fun d => if n < 96 then d.setReg (0xD00108 + 16 * n) (v % 2 ^ 48) else d := by
  rw [← valAt_eq]; rfl

theorem exec_cntOverflow {amount : Nat} : exec (.cntOverflow n amount) s = s.act fun d =>
    if n ≥ 96 || d.counters.frozen then d else
    let v := d.field (0xD00108 + 16 * n) 0 48 + amount
    let e := d.setReg (0xD00108 + 16 * n) (v % 2 ^ 48)
    if v < 2 ^ 48 then e else e.wrapped n := by
  rw [← valAt_eq]; rfl

/-- A counter that runs goes on from its value, and wraps past 2^48 - 1. -/
theorem cntOverflow_becomes {amount v : Nat} (hn : n < 96) (h : s.dev.counters.frozen = false)
    (hv : s.dev.field (0xD00108 + 16 * n) 0 48 + amount = v) : Becomes (.cntOverflow n amount) s
      (if v < 2 ^ 48 then s.dev.setReg (0xD00108 + 16 * n) (v % 2 ^ 48)
        else (s.dev.setReg (0xD00108 + 16 * n) (v % 2 ^ 48)).wrapped n) := by
  subst hv
  exact becomes_of_act exec_cntOverflow (if_neg (by simp [h, hn]))

end

/-! ### The statement's parts -/

/-- FREEZE written 1 freezes the counters that run. -/
theorem cntFreeze_runs {s : State} {client : Nat} (h : s.dev.counters.frozen = false) : Runs (.cntFreeze client) s fun d =>
    d.counters = { s.dev.counters with frozen := true, frozenBreath := s.dev.breath, latched := d.counters.latched } ∧
    d.field 0xD00000 0 1 = 1 ∧ (∀ a ∈ totalRegisters, d.totalRead a = s.dev.runningTotal a) ∧ RegsKept s.dev d [0xD00000, 0x318] ∧
    NewestEvent s.dev d Cls.control 0x91 0 [b1 0, b8 s.dev.breath] := by
  refine runs_of_act exec_cntFreeze ⟨?_, ?_, fun a => freeze_totalRead h 0, freeze_regsKept h 0, freeze_newest h 0⟩
  · rw [freeze_counters h]
  · rw [Dev.field, freeze_ctl h, bitsOf_withBits]; rfl

theorem cntOverflow_fits {s : State} {n amount : Nat} (hn : n < 96) (h : s.dev.counters.frozen = false)
    (hv : s.dev.field (0xD00108 + 16 * n) 0 48 + amount < 2 ^ 48) : Runs (.cntOverflow n amount) s fun d =>
    d.reg (0xD00108 + 16 * n) = s.dev.field (0xD00108 + 16 * n) 0 48 + amount ∧ RegsKept s.dev d [0xD00108 + 16 * n] ∧
      d = { s.dev with regs := d.regs } := by
  have hb := cntOverflow_becomes hn h (amount := amount) rfl
  rw [if_pos hv, Nat.mod_eq_of_lt hv] at hb
  exact ⟨_, hb, Dev.reg_setReg_self .., regsKept_setReg _ _ _, rfl⟩

theorem cntOverflow_wraps {s : State} {n amount : Nat} (hn : n < 96) (h : s.dev.counters.frozen = false)
    (hv : 2 ^ 48 ≤ s.dev.field (0xD00108 + 16 * n) 0 48 + amount) :
    let ovf := 0xD00040 + 8 * (n / 64)
    Runs (.cntOverflow n amount) s fun d =>
      d.reg (0xD00108 + 16 * n) = (s.dev.field (0xD00108 + 16 * n) 0 48 + amount) % 2 ^ 48 ∧ d.field ovf (n % 64) 1 = 1 ∧
      RegsKept s.dev d [0xD00108 + 16 * n, ovf, 0x318] ∧
      (s.dev.field ovf (n % 64) 1 = 0 → NewestEvent s.dev d Cls.control 0x90 n [b8 s.dev.breath]) ∧
      (s.dev.field ovf (n % 64) 1 = 1 → d = { s.dev with regs := d.regs }) := by
  intro ovf
  have hb := cntOverflow_becomes hn h (amount := amount) rfl
  rw [if_neg (Nat.not_lt.2 hv)] at hb
  have hne : ovf ≠ 0xD00108 + 16 * n := by omega
  have hf (v : Nat) : (s.dev.setReg (0xD00108 + 16 * n) v).field ovf (n % 64) 1 = s.dev.field ovf (n % 64) 1 := by
    rw [Dev.field, Dev.reg_setReg_ne _ _ _ _ hne, Dev.field]
  refine ⟨_, hb, ?_, wrapped_field .., ?_, fun h0 => ?_, fun h1 => ?_⟩
  · rw [wrapped_regsKept _ n _ (by simp; omega), Dev.reg_setReg_self]
  · exact (RegsKept.mono (regsKept_setReg _ _ _) (by simp)).trans (RegsKept.mono (wrapped_regsKept _ _) (by simp [ovf]))
  · rw [wrapped_of_clear ((hf _).trans h0)]
    exact fun c hc _ => post_newest _ _ _ _ _ c hc rfl
  · rw [wrapped_of_set ((hf _).trans h1)]
    rfl

/-- An armed freeze acts at the first edge that comes 2 us after the arming or later. -/
theorem edgeFreeze_acts {d : Dev} {t edge : Nat} (hf : d.counters.freezeArm = some t) (hr : d.counters.resumeArm = none)
    (h : d.counters.frozen = false) (he : t + 2000000 ≤ edge) : (d.edgeFreeze edge).counters.frozen = true ∧
    (d.edgeFreeze edge).counters.freezeArm = none ∧ (d.edgeFreeze edge).field 0xD00000 1 1 = 0 := by
  have hd : d.disarmFreeze.counters.frozen = false := h
  rw [edgeFreeze_of_met (by simpa [hf, meets_some] using he) hr h, Dev.field, freeze_counters hd, freeze_ctl hd]
  exact ⟨rfl, rfl, (bitsOf_withBits_above _ 0 1 1 1).trans (Dev.field_setField_self ..)⟩

/-- A snapshot that is due puts its record in the ring, and leaves every other region and every register. -/
theorem snapshot_writes {d : Dev} {i : Nat} {r : Region} (frozen : Bool) (hdiv : d.field 0xD00000 16 16 ≠ 0)
    (hb : d.breath % d.field 0xD00000 16 16 = 0) (hr : d.bufferRegion (d.reg 0xD00010) = some (i, r)) (hl : 832 ≤ r.length)
    (hw : d.counters.snapWritten < 100000) :
    (d.snapshot frozen).counters = { d.counters with
      snapIndex := (d.counters.snapIndex + 1) % (r.length / 832), snapWritten := d.counters.snapWritten + 1 } ∧
    (∃ y, find (d.snapshot frozen).memory.regions i = some y ∧
      readBytes y.mem (d.counters.snapIndex % (r.length / 832) * 832) 832 = d.snapshotRecord frozen) ∧
    (∀ j, j ≠ i → find (d.snapshot frozen).memory.regions j = find d.memory.regions j) ∧ (d.snapshot frozen).regs = d.regs := by
  obtain ⟨-, hi⟩ := find_of_bufferRegion hr
  rw [snapshot_of_ring frozen hdiv hb hr hl hw]
  simp only [Dev.onCounters_memory, find_writeRegion, if_pos, hi]
  refine ⟨rfl, ⟨_, rfl, ?_⟩, fun j hj => if_neg hj, rfl⟩
  rw [readBytes_writeBytes _ (length_snapshotRecord d frozen)]

/-- Settles O54: what each row, an edge and a snapshot does has its own lemma above. -/
theorem countersFreezeAndWrap : Obligations.CountersFreezeAndWrap := by
  unfold Obligations.CountersFreezeAndWrap
  refine ⟨?rows, ?write, ?count, ?edge⟩
  case rows =>
    intro s client now c
    refine ⟨fun h => idles_of_act exec_cntFreeze (freeze_of_frozen h 0), cntFreeze_runs, ?resume, ?armFreeze, ?armResume, ?clear⟩
    case resume =>
      exact runs_of_act exec_cntResume
        ⟨rfl, Dev.field_setField_self .., fun a => resume_totalRead s.dev, regsKept_setField (s.dev.onCounters _) _ _ _ _, rfl⟩
    case armFreeze =>
      exact runs_of_act exec_freezeEdge
        ⟨rfl, Dev.field_setField_self .., regsKept_setField ((s.dev.clock now).onCounters _) _ _ _ _, rfl⟩
    case armResume =>
      exact runs_of_act exec_resumeEdge
        ⟨rfl, Dev.field_setField_self .., regsKept_setField ((s.dev.clock now).onCounters _) _ _ _ _, rfl⟩
    case clear =>
      refine runs_of_act exec_clearAll ⟨fun n hn => ?_, ?_, ?_, fun a ha => ?_, clearCounters_only s.dev⟩
      · rw [reg_clearCounters]
        exact if_pos (.inr (.inr (List.mem_map.2 ⟨n, List.mem_range.2 hn, valAt_eq n⟩)))
      · simp [reg_clearCounters]
      · simp [reg_clearCounters]
      · rw [reg_clearCounters]
        exact if_neg (by simpa [valAt_eq, or_left_comm] using ha)
  case write =>
    intro s client n v hn
    refine runs_of_act exec_cntValWrite ?_
    rw [if_pos hn]
    exact ⟨Dev.reg_setReg_self .., regsKept_setReg _ _ _, rfl⟩
  case count =>
    intro s n amount hn value ovf
    exact ⟨fun h => idles_of_act exec_cntOverflow (if_pos (by simp [h])), cntOverflow_fits hn, cntOverflow_wraps hn⟩
  case edge =>
    intro d edge i r frozen div
    refine ⟨fun t hf hr h => ⟨edgeFreeze_acts hf hr h, fun he => ?unmet⟩, snapshot_of_notDue frozen, snapshot_writes frozen, ?drop⟩
    case unmet =>
      exact edgeFreeze_of_unmet (by simpa [hf, meets_some] using he) (by rw [hr, meets_none])
    case drop =>
      intro hdiv hb hk hr
      rw [snapshot_of_noRing frozen hdiv hb hk hr]
      exact ⟨Dev.reg_setReg_self .., rfl⟩

end Sys2Proof.Machine
end
